-- ==== Sys2Proof/Word.lean ====
section
/-! DEFINITION. The word types of KAKU-BMS (spec/00_scope.md R11: every value is unsigned, arithmetic on a
register is modulo 2 to the power of its width, which is what `BitVec` arithmetic is). -/

namespace Sys2Proof

/-- A register byte, a data byte of the bus, a status code (R22, R72). -/
abbrev Byte := BitVec 8

/-- A 16-bit register: `OFF`, `IDX`, `RES`, `CAPACITY`, `NEXTIDX` (R25, R28, R29, R33, R39). -/
abbrev Half := BitVec 16

/-- An address of the host space, `HADDR[8:0]` (R22). -/
abbrev HostAddr := BitVec 9

/-- A 7-bit device address of the bus (R24, R57). -/
abbrev DevAddr := BitVec 7

/-- A minute of the day, 0 to 1439, or the window bound 1440 (R38, R46). -/
abbrev Minute := BitVec 11

end Sys2Proof
end

