-- ==== Sys2Proof/Syntax.lean ====
section
/-! DEFINITION. The commands of KAKU-BMS, one constructor per row of spec/opcode_table.json, their operand
forms (spec/30_encoding.md R101, R102), and the command lines of the script notation (R108 to R112). -/

namespace Sys2Proof

/-- The fourteen commands (R101). A command byte has no operand field: operands are the contents of the operand
registers at the moment of acceptance (R100), so no constructor takes an argument. -/
inductive Instr where
  | nop       -- 0x00 NOP
  | bread     -- 0x10 BREAD
  | bwrite    -- 0x11 BWRITE
  | clkread   -- 0x20 CLKREAD
  | clkwrite  -- 0x21 CLKWRITE
  | memread   -- 0x22 MEMREAD
  | memwrite  -- 0x23 MEMWRITE
  | gettime   -- 0x24 GETTIME
  | loadcfg   -- 0x25 LOADCFG
  | rdrec     -- 0x30 RDREC
  | wrrec     -- 0x31 WRREC
  | cntvalid  -- 0x32 CNTVALID
  | chkdueN   -- 0x40 CHKDUE.N
  | chkdueI   -- 0x41 CHKDUE.I
deriving DecidableEq, Repr

/-- The four operand forms (R102). -/
inductive Form where
  | z  -- no operand
  | b  -- DEV, OFF, LEN
  | p  -- OFF, LEN
  | r  -- IDX
deriving DecidableEq, Repr

/-- The operand form of each command (R102). -/
def Instr.form : Instr → Form
  | .nop | .gettime | .loadcfg | .cntvalid | .chkdueN | .chkdueI => .z
  | .bread | .bwrite => .b
  | .clkread | .clkwrite | .memread | .memwrite => .p
  | .rdrec | .wrrec => .r

/-- A command line of a script (R108): the mnemonic with the operands it names; an operand left out keeps the
value its register already holds. The numbers are the writer's, so they may be out of range (R112). -/
structure Line where
  instr : Instr
  /-- `dev=d, aw=w`. -/
  dev : Option (Nat × Nat) := none
  /-- `off=o`. -/
  off : Option Nat := none
  /-- `len=n`. -/
  len : Option Nat := none
  /-- `idx=i`. -/
  idx : Option Nat := none
  /-- `data=[b0, b1, ...]`, `DBUF[0]` first. -/
  data : Option (List Nat) := none
deriving DecidableEq, Repr

end Sys2Proof
end

