-- ==== Sys2Proof/Decode.lean ====
section
/-! DEFINITION. Decoding of a command byte, total over the 256 values (spec/30_encoding.md R100, R101, R106),
and the encoder. -/

namespace Sys2Proof

/-- Why a list of bytes is no command: the named rejections of the decoder. -/
inductive DecodeError where
  /-- The byte is one of the 242 values of R106. Not a stop of the machine: a `CMD` write of such a byte runs
  ILLEGAL (R261). -/
  | illegalCommand (c : Byte)
  /-- There is no byte. -/
  | noByte
deriving DecidableEq, Repr

/-- One row of spec/opcode_table.json: the byte `match` under the mask `mask` is the command. -/
structure OpRow where
  instr : Instr
  pattern : Byte
  mask : Byte
deriving DecidableEq, Repr

/-- The fourteen rows (R101: all eight bits are compared, mask 0xFF in every row). -/
def opTable : List OpRow :=
  [⟨.nop, 0x00, 0xFF⟩, ⟨.bread, 0x10, 0xFF⟩, ⟨.bwrite, 0x11, 0xFF⟩, ⟨.clkread, 0x20, 0xFF⟩,
   ⟨.clkwrite, 0x21, 0xFF⟩, ⟨.memread, 0x22, 0xFF⟩, ⟨.memwrite, 0x23, 0xFF⟩, ⟨.gettime, 0x24, 0xFF⟩,
   ⟨.loadcfg, 0x25, 0xFF⟩, ⟨.rdrec, 0x30, 0xFF⟩, ⟨.wrrec, 0x31, 0xFF⟩, ⟨.cntvalid, 0x32, 0xFF⟩,
   ⟨.chkdueN, 0x40, 0xFF⟩, ⟨.chkdueI, 0x41, 0xFF⟩]

/-- The command a byte encodes, or the rejection by name (R101, R106). -/
def decodeByte (c : Byte) : Except DecodeError Instr :=
  match opTable.find? (fun r => c &&& r.mask == r.pattern) with
  | some r => .ok r.instr
  | none => .error (.illegalCommand c)

/-- The command at the head of a list of bytes, and the bytes after it (R100: every command is one byte). -/
def decode : List Byte → Except DecodeError (Instr × List Byte)
  | [] => .error .noByte
  | c :: rest =>
    match decodeByte c with
    | .ok i => .ok (i, rest)
    | .error e => .error e

/-- The command group, bits 7:4 of the byte (R100, R105). -/
def Instr.grp : Instr → BitVec 4
  | .nop => 0
  | .bread | .bwrite => 1
  | .clkread | .clkwrite | .memread | .memwrite | .gettime | .loadcfg => 2
  | .rdrec | .wrrec | .cntvalid => 3
  | .chkdueN | .chkdueI => 4

/-- The function in the group, bits 3:0 of the byte (R100, R105). -/
def Instr.fn : Instr → BitVec 4
  | .nop => 0
  | .bread => 0
  | .bwrite => 1
  | .clkread => 0
  | .clkwrite => 1
  | .memread => 2
  | .memwrite => 3
  | .gettime => 4
  | .loadcfg => 5
  | .rdrec => 0
  | .wrrec => 1
  | .cntvalid => 2
  | .chkdueN => 0
  | .chkdueI => 1

/-- The command byte: `grp` in the upper four bits, `fn` in the lower four (R100). -/
def encodeByte (i : Instr) : Byte := i.grp ++ i.fn

/-- The words of a command: one byte (R100). -/
def encode (i : Instr) : List Byte := [encodeByte i]

/-- The bytes of an instruction of `nbits` bits held in `w`, the first byte in bits 7:0. -/
def wordBytes : Nat → Nat → List Byte
  | 0, _ => []
  | n + 1, w => BitVec.ofNat 8 w :: wordBytes n (w / 256)

/-- The command the decoder reads from the table word `w` of `nbits` bits. -/
def decodeTableWord (nbits w : Nat) : Option Instr :=
  match decode (wordBytes (nbits / 8) w) with
  | .ok (i, _) => some i
  | .error _ => none

end Sys2Proof
end

