-- ==== Sys2Proof/Config.lean ====
section
/-! DEFINITION. The build parameters of spec/00_scope.md R9, the constants the spec fixes there, and the free
values: what the spec calls "any value" (spec/93_implementation_defined.md U6, U7, U18). -/

namespace Sys2Proof

/-- The OPEN parameters of R9 (92_eei_decisions.md, "Open parameters in one list"; U13). They are fixed at
build time and no step changes them; they are a field of `State`, so that a statement about every state is a
statement about every admissible value (log entry 2). -/
structure Params where
  /-- `MAX_ITER`, 1 to 255: bound on the select-NACKs of one transaction (R9, R36, R137). -/
  maxIter : Byte
  /-- `CLOCK_DEV`: 7-bit address of the clock device (R9, R180). -/
  clockDev : DevAddr
  /-- `MEM_DEV`: 7-bit address of the memory device (R9, R180). -/
  memDev : DevAddr
  /-- `MEM_AW`, 1 or 2 address bytes of the memory profile: true means 2 (R9, R180). -/
  memAw2 : Bool
  /-- `HWINFO_OFF`, 7 to 248: offset of the hardware-info record in the clock device (R9, R85). -/
  hwinfoOff : Byte
deriving DecidableEq, Repr

/-- The default build of R9: `MAX_ITER` 200, `CLOCK_DEV` 0x68, `MEM_DEV` 0x50, `MEM_AW` 2, `HWINFO_OFF` 0x08.
PRESUMED (the spec marks three of them as general knowledge; log entry 2). -/
def Params.default : Params :=
  { maxIter := 200, clockDev := 0x68, memDev := 0x50, memAw2 := true, hwinfoOff := 0x08 }

namespace Config

/-- `TIME_OFF` (R9). -/
def timeOff : Half := 0
/-- `TIME_LEN` (R9). -/
def timeLen : Byte := 7
/-- `HWINFO_LEN` (R9). -/
def hwinfoLen : Byte := 8
/-- `REC_SIZE` (R9, R84). -/
def recSize : Byte := 10
/-- `DAY_MINUTES` (R9). -/
def dayMinutes : Minute := 1440
/-- `DBUF_SIZE` (R9, R30). -/
def dbufSize : Nat := 256

/-- FREE VALUE (U7, R30, R321). What byte `i` of `DBUF` holds after reset number `k` until something writes it:
any value, fixed per byte until written. -/
opaque dbufDraw (k i : Nat) : Byte

/-- FREE VALUE (U6, U18, R53, R300). What the `n`-th unspecified host read returns: any value, a fresh one at
each read. -/
opaque hostReadDraw (n : Nat) : Byte

end Config
end Sys2Proof
end

