-- ==== Sys2Proof/Machine/State.lean ====
section
/-! DEFINITION. The state of KAKU-BMS (spec/10_state.md R20 to R57): the host-visible registers, `DBUF`, the
hidden latches, the tick flag, the transmit port, and, as the model's own fields, the trace of what the outside
does and the histories of what the block does to the outside. Plain data throughout. -/

namespace Sys2Proof.Machine

/-! ## The outside: one instant of the ports -/

/-- One access of the host port (R22). -/
inductive HostAccess where
  | read (a : HostAddr)
  | write (a : HostAddr) (v : Byte)
deriving DecidableEq, Repr

/-- What the outside does in one instant (R21: none of it is state of the block; the model reads it from a trace,
log entry 3). The instant without any of it is `Instant.quiet`. -/
structure Instant where
  /-- RESET is asserted in this instant (R49, R300). -/
  reset : Bool := false
  /-- At most one access of the one host port (R22). -/
  host : Option HostAccess := none
  /-- TICK rises in this instant (R48). -/
  tick : Bool := false
  /-- The line controller completes the outstanding primitive with this status and data byte (R72, R73). -/
  bus : Option (Byte × Byte) := none
  /-- `TX_ACK` is 1 in this instant (R47). -/
  txAck : Bool := false
deriving DecidableEq, Repr

/-- Nothing happens at the ports. -/
def Instant.quiet : Instant := {}

/-- The bus primitives (R72, R17). -/
inductive Prim where
  | start
  | send (b : Byte)
  | recvAck
  | recvNack
  | stop
deriving DecidableEq, Repr

/-- A completed primitive: with its status, but for STOP, and the data byte of a receive (R72). -/
structure PrimEvent where
  prim : Prim
  status : Option Byte
  data : Option Byte
deriving DecidableEq, Repr

/-- One `Transmit(maj, min, cmd)` (R47). -/
structure TxEvent where
  major : Byte
  minor : Byte
  cmd : Bool
deriving DecidableEq, Repr

/-! ## Enumerations of the hidden state -/

/-- The protocol state of the bus transaction engine, `PSTATE` (R42). -/
inductive PState where
  | idle    -- P_IDLE 0
  | start   -- P_START 1
  | slaw    -- P_SLAW 2
  | addrH   -- P_ADDRH 3
  | addrL   -- P_ADDRL 4
  | rstart  -- P_RSTART 5
  | slar    -- P_SLAR 6
  | rdata   -- P_RDATA 7
  | wdata   -- P_WDATA 8
  | stopOk  -- P_STOP_OK 9
  | stopFail -- P_STOP_FAIL 10
deriving DecidableEq, Repr

/-- `XKIND` (R46): a Read or a Write transaction. -/
inductive XKind where
  | rd
  | wr
deriving DecidableEq, Repr

/-- `MODE` of a CheckDue (R46): in the command byte bit 0 is 0 for Normal (R101). -/
inductive Mode where
  | normal
  | init
deriving DecidableEq, Repr

/-- The failure codes of R270, `E_NONE` among them. -/
inductive FailCode where
  | none
  | notStart
  | byteNack
  | status
  | retry
  | incomplete
  | range
  | badTime
  | illCmd
deriving DecidableEq, Repr

/-- Where the running command stands in its pseudocode: which operation the running transaction belongs to, or
that a transmission waits for its acknowledgement. The spec leaves it to the model (R46: "local variables of the
command's step function"; log entry 4). -/
inductive Task where
  /-- No command runs. -/
  | idle
  /-- BREAD, BWRITE, CLKREAD, CLKWRITE, MEMREAD, MEMWRITE (R165, R166, R181 to R184). -/
  | transfer
  /-- GETTIME (R186). -/
  | getTime
  /-- LOADCFG (R187). -/
  | loadCfg
  /-- RDREC (R202). -/
  | rdRec
  /-- WRREC (R203). -/
  | wrRec
  /-- CNTVALID, reading record `CIDX` (R204). -/
  | cntValid
  /-- CheckDue step 1, the time read (R222). -/
  | dueTime
  /-- CheckDue, a scan reading record `NEXTIDX`; `more` says that the window `[0, CUR)` is still to be scanned after
  this one (R225, R231). -/
  | dueScan (more : Bool)
  /-- CheckDue, a scan waiting for `TX_ACK` (R235, R47). -/
  | dueTx (more : Bool)
deriving DecidableEq, Repr

/-! ## Groups of registers -/

/-- The operand registers the host writes (R24, R25, R26, R28). -/
structure OpRegs where
  /-- `DEV`, 0x004: bit 7 selects two address bytes, bits 6:0 are the device address (R24). -/
  dev : Byte
  /-- `OFF`, 0x005 and 0x006 (R25). -/
  off : Half
  /-- `LEN`, 0x007 (R26). -/
  len : Byte
  /-- `IDX`, 0x009 and 0x00A (R28). -/
  idx : Half
deriving DecidableEq, Repr

/-- `DT_SEC` to `DT_YEAR`, 0x014 to 0x01A (R40). -/
structure DateTime where
  sec : Byte
  min : Byte
  hour : Byte
  wday : Byte
  day : Byte
  mon : Byte
  year : Byte
deriving DecidableEq, Repr

/-- `HW_VER` to `HW_MAGIC1`, 0x01B to 0x022 (R41). -/
structure HwInfo where
  ver : Byte
  mtype : Byte
  /-- `MEMSIZE`, `MEMSZ0` to `MEMSZ3`. -/
  memSize : BitVec 32
  magic0 : Byte
  magic1 : Byte
deriving DecidableEq, Repr

/-- The cursor (R17, R38, R39). -/
structure Cursor where
  /-- `LASTMIN`, 11 bits (R38). -/
  lastMin : Minute
  /-- `NEXTIDX`, 16 bits (R39, R44). -/
  nextIdx : Half
deriving DecidableEq, Repr

/-- The bus transaction engine: `COUNT`, `ITER`, `BSTAT` and the hidden BTE latches, what R269 calls "bus". -/
structure Bte where
  /-- `PSTATE` (R42). -/
  pstate : PState
  /-- `BIDX`, 9 bits (R43). -/
  bidx : BitVec 9
  /-- `OWNED` (R45). -/
  owned : Bool
  /-- `COUNT`, 0x008 (R27). -/
  count : Byte
  /-- `ITER`, 0x00F (R36). -/
  iter : Byte
  /-- `BSTAT`, 0x023 (R37). -/
  bstat : Byte
  /-- `XKIND` (R46). -/
  xkind : XKind
  /-- `XDEV`, 7 bits (R46). -/
  xdev : DevAddr
  /-- `XAW`, 1 or 2 while a transaction runs, 0 after reset (R46). -/
  xaw : BitVec 2
  /-- `XOFF`, 16 bits (R46). -/
  xoff : Half
  /-- `XLEN`, 8 bits (R46). -/
  xlen : Byte
  /-- The code an `Abort` remembers until its STOP (R132: "with the code remembered"). -/
  xcode : FailCode
deriving DecidableEq, Repr

/-- The latches of the running command outside the engine (R46), and where it stands. -/
structure Seq where
  task : Task
  /-- `MODE` (R46). -/
  mode : Mode
  /-- `CUR`, 11 bits (R46). -/
  cur : Minute
  /-- `WFROM`, 11 bits (R46). -/
  wfrom : Minute
  /-- `WTO`, 11 bits, up to 1440 (R46). -/
  wto : Minute
  /-- `SSTART`, 16 bits (R46). -/
  sstart : Half
  /-- `CIDX`, 16 bits (R46). -/
  cidx : Half
deriving DecidableEq, Repr

/-- The output latches of the transmit port (R47). -/
structure TxPort where
  major : Byte
  minor : Byte
  cmd : Bool
  req : Bool
deriving DecidableEq, Repr

/-- MODEL'S OWN. What is outside the block: the trace of instants to come, endless (R157), and the histories of what the
block did to the outside, oldest first (R21, R47; log entries 3, 5, 6). -/
structure Env where
  /-- The instants to come, the next one first. -/
  inputs : List Instant
  /-- The instants that come once `inputs` is used up, again and again without end; quiet ones where it is empty. -/
  cycle : List Instant
  /-- Every completed primitive. -/
  prims : List PrimEvent
  /-- Every completed `Transmit`: the transmit history of R47. -/
  txs : List TxEvent
  /-- Every host read and the byte it returned. -/
  reads : List (HostAddr × Byte)
  /-- How many instants had RESET asserted: names the draw of `DBUF` (U7). -/
  resets : Nat
  /-- How many unspecified host reads there were: names the next draw (U6). -/
  draws : Nat
deriving DecidableEq, Repr

/-- A memory: address and byte, addresses strictly rising, only what has been written. `Memory.wf` is its canonical
form. -/
abbrev Memory := List Host.Cell

/-! ## The state -/

/-- The state of the machine (R20). -/
structure State where
  /-- The build parameters, changed by no step (R9). -/
  cfg : Params
  /-- `CMD`, 0x000: the last accepted command byte (R31). -/
  cmd : Byte
  /-- `STATUS.BUSY` (R32). -/
  busy : Bool
  /-- `STATUS.FAIL` (R32). -/
  fail : Bool
  /-- `STATUS.TICKP`, the tick flag (R32, R48). -/
  tickp : Bool
  /-- `STATUS.OVR` (R32). -/
  ovr : Bool
  /-- `STATUS.CFGOK` (R32). -/
  cfgok : Bool
  /-- `STATUS.SRC` (R32). -/
  src : Bool
  /-- `CTRL.TICK_EN` (R34). -/
  tickEn : Bool
  /-- `CTRL.HALT` (R34). -/
  halt : Bool
  /-- `ERR`, 0x003 (R35). -/
  err : Byte
  /-- `DEV`, `OFF`, `LEN`, `IDX`. -/
  ops : OpRegs
  /-- `RES`, 0x00B and 0x00C (R29). -/
  res : Half
  /-- `CAPACITY`, 0x00D and 0x00E (R33). -/
  capacity : Half
  /-- `LASTMIN` and `NEXTIDX`. -/
  cursor : Cursor
  /-- `DT_SEC` to `DT_YEAR`. -/
  dt : DateTime
  /-- `HW_VER` to `HW_MAGIC1`. -/
  hw : HwInfo
  /-- `DBUF`: the bytes written since reset, by index; an unlisted byte reads as its draw (R30, U7). -/
  dbuf : Memory
  /-- The bus transaction engine. -/
  bte : Bte
  /-- The latches of the running command. -/
  seq : Seq
  /-- The transmit port. -/
  tx : TxPort
  /-- The outside. -/
  env : Env
deriving DecidableEq, Repr

/-- A stop of the machine with a fault. There is none: every failure of the spec is reported in `FAIL` and `ERR` and
the machine goes on (R274, R279: "never fatal"), every host address exists (R23), and a wait that never ends is a
machine that stays busy (R312). -/
inductive Fault where
deriving DecidableEq, Repr

/-- A refusal of the model. -/
inductive Refusal where
  /-- Raised only by an arm of `exec` for a command without a meaning; no arm raises it. Safe: the model stops where the
  hardware goes on. -/
  | notModelled (mnemonic : String)
deriving DecidableEq, Repr

/-! ## Reset -/

/-- The engine after reset (R54). -/
def Bte.reset : Bte :=
  { pstate := .idle, bidx := 0, owned := false, count := 0, iter := 0, bstat := 0, xkind := .rd, xdev := 0,
    xaw := 0, xoff := 0, xlen := 0, xcode := .none }

/-- The command latches after reset (R54). -/
def Seq.reset : Seq :=
  { task := .idle, mode := .normal, cur := 0, wfrom := 0, wto := 0, sstart := 0, cidx := 0 }

/-- The machine right after reset (R54, R301): every register 0, idle, ticks disabled; no byte of `DBUF` has a value of
its own; nothing has happened outside and nothing is about to. The parameters are the default build of R9 (log entry 2). -/
def State.reset : State :=
  { cfg := Params.default
    cmd := 0
    busy := false, fail := false, tickp := false, ovr := false, cfgok := false, src := false
    tickEn := false, halt := false
    err := 0
    ops := { dev := 0, off := 0, len := 0, idx := 0 }
    res := 0
    capacity := 0
    cursor := { lastMin := 0, nextIdx := 0 }
    dt := { sec := 0, min := 0, hour := 0, wday := 0, day := 0, mon := 0, year := 0 }
    hw := { ver := 0, mtype := 0, memSize := 0, magic0 := 0, magic1 := 0 }
    dbuf := []
    bte := Bte.reset
    seq := Seq.reset
    tx := { major := 0, minor := 0, cmd := false, req := false }
    env := { inputs := [], cycle := [], prims := [], txs := [], reads := [], resets := 0, draws := 0 } }

end Sys2Proof.Machine
end

