-- ==== Sys2Proof/Machine/Ops.lean ====
section
/-! DEFINITION. The named operations over the buffer memory and the registers that every command is built from:
reading and writing `DBUF`, raising a failure and completing an operation (what stands in this block for taking an
exception and returning from it, spec/60_exceptions.md R275, R276), command start (R262), reset (R300). -/

namespace Sys2Proof.Machine

/-! ## Memory: the bytes of `DBUF` that have been written -/

/-- The byte written at address `a`, none where nothing was written (R30: "no value until the host or a transaction
has written it"). -/
def Memory.read? : Memory → Nat → Option Byte
  | [], _ => none
  | (b, v) :: m, a => if a = b then some v else Memory.read? m a

/-- Write one byte, keeping the addresses strictly rising. -/
def Memory.write : Memory → Nat → Byte → Memory
  | [], a, v => [(a, v)]
  | (b, w) :: m, a, v =>
    if a < b then (a, v) :: (b, w) :: m
    else if a = b then (a, v) :: m
    else (b, w) :: Memory.write m a v

/-- Write bytes at consecutive addresses from `a` on. -/
def Memory.writeBytes : Nat → List Byte → Memory → Memory
  | _, [], m => m
  | a, b :: bs, m => Memory.writeBytes (a + 1) bs (Memory.write m a b)

/-- The canonical form: addresses strictly rising. An unlisted address has no value of its own, so no entry can equal
what an unlisted address reads as, and equal memories are equal lists. -/
def Memory.wf : Memory → Bool
  | [] => true
  | [_] => true
  | (a, _) :: (b, w) :: m => decide (a < b) && Memory.wf ((b, w) :: m)

/-- Every address of the memory lies below `lim`. -/
def Memory.below (lim : Nat) (m : Memory) : Bool := m.all (fun c => decide (c.1 < lim))

/-- `DBUF[i]`: what was written there since reset, else the byte's draw (R30, U7; log entry 7). -/
def State.dbufGet (s : State) (i : Byte) : Byte :=
  (Memory.read? s.dbuf i.toNat).getD (Config.dbufDraw s.env.resets i.toNat)

/-- `DBUF[i] <- v` (R12). -/
def State.dbufSet (s : State) (i : Byte) (v : Byte) : State :=
  { s with dbuf := Memory.write s.dbuf i.toNat v }

/-! ## The trace and the histories -/

/-- The trace of instants still to come. -/
def State.withInputs (s : State) (ins : List Instant) : State :=
  { s with env := { s.env with inputs := ins } }

/-- Record a completed primitive. -/
def State.logPrim (s : State) (p : PrimEvent) : State :=
  { s with env := { s.env with prims := s.env.prims ++ [p] } }

/-- Record a host read and what it returned. -/
def State.logRead (s : State) (a : HostAddr) (v : Byte) : State :=
  { s with env := { s.env with reads := s.env.reads ++ [(a, v)] } }

/-- A host read whose value is unspecified: a fresh draw (R53, R300; U6, U18; log entry 8). -/
def State.drawRead (s : State) (a : HostAddr) : State :=
  { s with env := { s.env with reads := s.env.reads ++ [(a, Config.hostReadDraw s.env.draws)],
                               draws := s.env.draws + 1 } }

/-- A rising edge of TICK sets `TICKP`, whatever `BUSY`, `TICK_EN` and `HALT` are (R48). -/
def State.latchTick (tick : Bool) (s : State) : State :=
  { s with tickp := s.tickp || tick }

/-! ## Failures and completion -/

/-- The numeric failure codes of R270. -/
def FailCode.code : FailCode → Byte
  | .none => 0x00
  | .notStart => 0x01
  | .byteNack => 0x02
  | .status => 0x03
  | .retry => 0x04
  | .incomplete => 0x05
  | .range => 0x06
  | .badTime => 0x07
  | .illCmd => 0x08

/-- `raise Failure(code)`, step (1) of R275: `ERR <- code`. Steps (2) and (3), the abort path and the return to the
operation that ran the transaction, are `bteStop` and `finish`. -/
def State.raise (c : FailCode) (s : State) : State := { s with err := c.code }

/-- Completion (R263): `FAIL` takes the value the command's rule gives, `BUSY <- 0`, `PSTATE = P_IDLE`. -/
def State.complete (failed : Bool) (s : State) : State :=
  { s with fail := failed, busy := false, bte := { s.bte with pstate := .idle }, seq := { s.seq with task := .idle } }

/-- Completion of a CheckDue pass: as `complete`, and `TICKP <- 0` in the same step (R246). A TICK edge of that very
step is latched after it and wins (R246, 90_conflicts.md C14). -/
def State.completePass (failed : Bool) (s : State) : State :=
  { s.complete failed with tickp := false }

/-- A discarded host write: `OVR <- 1` and nothing else (R31, R53, R284). -/
def State.discard (s : State) : State := { s with ovr := true }

/-- Command start (R262): `CMD <- c`, `BUSY <- 1`, `SRC <- 0`, and the first action of every command, `ERR <- E_NONE`.
`FAIL` keeps its old value until completion (R262, R276; log entry 9 on a cell of R32's table). -/
def State.commandStart (c : Byte) (s : State) : State :=
  { s with cmd := c, busy := true, src := false, err := FailCode.none.code }

/-- Start of a tick run (R245): `BUSY <- 1`, `SRC <- 1`, `ERR <- E_NONE`; `CMD` is not changed. -/
def State.tickStart (s : State) : State :=
  { s with busy := true, src := true, err := FailCode.none.code }

/-! ## Reset -/

/-- One instant with RESET asserted (R49, R54, R300): every piece of state takes its reset value, the host's write and
TICK are ignored, a host read returns any value. The build parameters and the histories are not state of the block. -/
def resetInstant (i : Instant) (s : State) : State :=
  let r : State := { State.reset with cfg := s.cfg, env := { s.env with resets := s.env.resets + 1 } }
  match i.host with
  | some (.read a) => r.drawRead a
  | _ => r

end Sys2Proof.Machine
end

