-- ==== Sys2Proof/Machine/Flags.lean ====
section
/-! DEFINITION. Every flag and status encoding of the spec: `STATUS` and `CTRL` as bytes (spec/10_state.md R32, R34),
the `CTRL` write (spec/44_system.md R264 to R266), the codes of `PSTATE` and of the primitives (R42, R72). -/

namespace Sys2Proof.Machine

/-- A bit of a byte from a flag. -/
def bit (b : Bool) (k : Nat) : Byte := if b then BitVec.ofNat 8 (2 ^ k) else 0

/-- `STATUS.HALTED`: `CTRL.HALT = 1` and `BUSY = 0`, derived and no latch (R32). -/
def State.halted (s : State) : Bool := s.halt && !s.busy

/-- `STATUS` (R32): bit 0 `BUSY`, 1 `FAIL`, 2 `TICKP`, 3 `OVR`, 4 `CFGOK`, 5 `HALTED`, 6 `SRC`, 7 reserved, reads 0. -/
def State.statusByte (s : State) : Byte :=
  bit s.busy 0 ||| bit s.fail 1 ||| bit s.tickp 2 ||| bit s.ovr 3 ||| bit s.cfgok 4 ||| bit s.halted 5 ||| bit s.src 6

/-- `CTRL` (R34): bit 0 `TICK_EN`, bit 1 `HALT`; `OVRCLR` and the reserved bits read 0. -/
def State.ctrlByte (s : State) : Byte := bit s.tickEn 0 ||| bit s.halt 1

/-- A write of `CTRL`, at any time (R34, R264 to R266): bit 0 is stored, bit 1 only sets, bit 2 clears `OVR`, bits 7:3
are ignored. -/
def State.ctrlWrite (v : Byte) (s : State) : State :=
  { s with tickEn := v.getLsbD 0, halt := s.halt || v.getLsbD 1, ovr := s.ovr && !v.getLsbD 2 }

/-- The 4-bit values of `PSTATE` (R42). -/
def PState.code : PState → BitVec 4
  | .idle => 0
  | .start => 1
  | .slaw => 2
  | .addrH => 3
  | .addrL => 4
  | .rstart => 5
  | .slar => 6
  | .rdata => 7
  | .wdata => 8
  | .stopOk => 9
  | .stopFail => 10

/-- The 3-bit request codes of the primitive port (R72). -/
def Prim.code : Prim → BitVec 3
  | .start => 0
  | .send _ => 1
  | .recvAck => 2
  | .recvNack => 3
  | .stop => 4

/-- The start condition of a tick run but for the host's part (R245): idle, not halted, ticks enabled, a tick pending. -/
def State.tickReady (s : State) : Bool := !s.busy && !s.halt && s.tickEn && s.tickp

end Sys2Proof.Machine
end

