-- ==== Sys2Proof/Machine/Operands.lean ====
section
/-! DEFINITION. Every operand form (spec/30_encoding.md R102, R103), the profiles (R180), `bcd` (R15), the fields of the
three records (spec/20_memory.md R83 to R85) and the arithmetic of the scheduler (R224, R233, R234, R241). -/

namespace Sys2Proof.Machine

/-! ## Operand assembly -/

/-- `dev = DEV[6:0]` (R103). -/
def State.opDev (s : State) : DevAddr := s.ops.dev.setWidth 7

/-- `aw = 2 if DEV[7] = 1 else 1` (R103). -/
def State.opAw (s : State) : BitVec 2 := if s.ops.dev.getLsbD 7 then 2 else 1

/-- `CLOCK_AW` (R9, R180). -/
def clockAw : BitVec 2 := 1

/-- `MEM_AW` (R9, R180). -/
def State.memAw (s : State) : BitVec 2 := if s.cfg.memAw2 then 2 else 1

/-- The device offset of record slot `i`, `10 * i` in 17 bits (R103, R208). After the range check it is at most 65520, so
the 16 bits of `XOFF` hold it. -/
def recOffset (i : Half) : Half := (i.setWidth 17 * 10#17).setWidth 16

/-! ## Records -/

/-- `bcd(b) = 10 * b[7:4] + b[3:0]`, over all eight bits (R15). -/
def bcd (b : Byte) : Byte := 10 * (b >>> 4) + (b &&& 0x0F)

/-- The time record in `DBUF[0..6]`, decoded (R83, R185). -/
def State.decodedTime (s : State) : DateTime :=
  { sec := bcd (s.dbufGet 0), min := bcd (s.dbufGet 1), hour := bcd (s.dbufGet 2), wday := bcd (s.dbufGet 3),
    day := bcd (s.dbufGet 4), mon := bcd (s.dbufGet 5), year := bcd (s.dbufGet 6) }

/-- The hardware-info record in `DBUF[0..7]`; the memory size is little-endian (R85, R79, R187). -/
def State.hwRecord (s : State) : HwInfo :=
  { ver := s.dbufGet 0, mtype := s.dbufGet 1,
    memSize := s.dbufGet 5 ++ s.dbufGet 4 ++ s.dbufGet 3 ++ s.dbufGet 2,
    magic0 := s.dbufGet 6, magic1 := s.dbufGet 7 }

/-- `floor(min(MEMSIZE, 2^(8*MEM_AW)) / REC_SIZE)` (R187, R188). -/
def capacityOf (memAw2 : Bool) (memSize : BitVec 32) : Half :=
  BitVec.ofNat 16 (min memSize.toNat (if memAw2 then 65536 else 256) / 10)

/-- The record in `DBUF[0..9]` is valid: byte 0 is not 0x00 (R84, R206). -/
def State.recValid (s : State) : Bool := !(s.dbufGet 0 == 0)

/-- `rm = DBUF[7]*60 + DBUF[8]`, exact in 14 bits (R233, R241). -/
def State.recMinute (s : State) : BitVec 14 :=
  (s.dbufGet 7).setWidth 14 * 60#14 + (s.dbufGet 8).setWidth 14

/-- `WFROM ≤ rm` and `rm < WTO` (R233). -/
def State.inWindow (s : State) : Bool :=
  decide (s.seq.wfrom.setWidth 14 ≤ s.recMinute) && decide (s.recMinute < s.seq.wto.setWidth 14)

/-- The weekday test: irrelevant, or the current weekday (R234). -/
def State.wdayOk (s : State) : Bool := s.dbufGet 6 == 0 || s.dbufGet 6 == s.dt.wday

/-- The date test: all three bytes 0, or the current date (R234). -/
def State.dateOk (s : State) : Bool :=
  (s.dbufGet 3 == 0 && s.dbufGet 4 == 0 && s.dbufGet 5 == 0) ||
    (s.dbufGet 3 == s.dt.day && s.dbufGet 4 == s.dt.mon && s.dbufGet 5 == s.dt.year)

/-- `fires` of R234. -/
def State.fires (s : State) : Bool := s.wdayOk && s.dateOk

/-- `DT_HOUR > 23` or `DT_MIN > 59` (R223). -/
def DateTime.bad (d : DateTime) : Bool := decide (23 < d.hour) || decide (59 < d.min)

/-- `CUR = DT_HOUR * 60 + DT_MIN`, 11 bits (R224). -/
def DateTime.minuteOfDay (d : DateTime) : Minute := d.hour.setWidth 11 * 60#11 + d.min.setWidth 11

/-- The cursor's next place: `0 if NEXTIDX + 1 = CAPACITY else NEXTIDX + 1` (R236). -/
def nextAfter (capacity nextIdx : Half) : Half := if nextIdx + 1 = capacity then 0 else nextIdx + 1

end Sys2Proof.Machine
end

