-- ==== Sys2Proof/Machine/Bte.lean ====
section
/-! DEFINITION. The bus transaction engine (spec/40_bus_transaction.md R130 to R167): the primitive it issues in each
protocol state, the transition function, and the STOP that ends a transaction. One completed primitive is one step
(R167). -/

namespace Sys2Proof.Machine

/-! ## Status codes (R74) -/

/-- `ST_START`. -/
abbrev stStart : Byte := 0x08
/-- `ST_REPSTART`. -/
abbrev stRepStart : Byte := 0x10
/-- `ST_SLAW_ACK`. -/
abbrev stSlawAck : Byte := 0x18
/-- `ST_SLAW_NACK`. -/
abbrev stSlawNack : Byte := 0x20
/-- `ST_TXDATA_ACK`. -/
abbrev stTxAck : Byte := 0x28
/-- `ST_TXDATA_NACK`. -/
abbrev stTxNack : Byte := 0x30
/-- `ST_ARB_LOST`. -/
abbrev stArbLost : Byte := 0x38
/-- `ST_SLAR_ACK`. -/
abbrev stSlarAck : Byte := 0x40
/-- `ST_SLAR_NACK`. -/
abbrev stSlarNack : Byte := 0x48
/-- `ST_RXDATA_ACK`. -/
abbrev stRxAck : Byte := 0x50
/-- `ST_RXDATA_NACK`. -/
abbrev stRxNack : Byte := 0x58

/-- Both start statuses count as a start condition, in both start states (R135). -/
def isStart (st : Byte) : Bool := st == stStart || st == stRepStart

/-! ## The primitive port -/

/-- The select byte `{dev[6:0], rw}` (R76). -/
def selectByte (dev : DevAddr) (rw : BitVec 1) : Byte := dev ++ rw

/-- `BIDX = XLEN`: the data phase is over (R43). -/
def Bte.atEnd (b : Bte) : Bool := b.bidx == b.xlen.setWidth 9

/-- `last = (BIDX = XLEN - 1)` (R146), for a `BIDX` below `XLEN`. -/
def Bte.lastByte (b : Bte) : Bool := b.bidx + 1 == b.xlen.setWidth 9

/-- The status a receive must complete with (R147): `ST_RXDATA_NACK` after `RECV_NACK`, else `ST_RXDATA_ACK`. -/
def Bte.expected (b : Bte) : Byte := if b.lastByte then stRxNack else stRxAck

/-- The index of `DBUF` that `BIDX` names; `BIDX` is below 256 whenever a data byte moves (R43). -/
def Bte.bufIndex (b : Bte) : Byte := b.bidx.setWidth 8

/-- The request outstanding on the primitive port (R72): which primitive each protocol state prescribes (R134 to R151).
None while no transaction runs, and none where the data phase is over (R146, R149: no primitive is issued). -/
def State.request (s : State) : Option Prim :=
  match s.bte.pstate with
  | .idle => none
  | .start => some .start
  | .slaw => some (.send (selectByte s.bte.xdev 0))
  | .addrH => some (.send (s.bte.xoff.extractLsb' 8 8))
  | .addrL => some (.send (s.bte.xoff.extractLsb' 0 8))
  | .rstart => some .start
  | .slar => some (.send (selectByte s.bte.xdev 1))
  | .rdata => if s.bte.atEnd then none else if s.bte.lastByte then some .recvNack else some .recvAck
  | .wdata => if s.bte.atEnd then none else some (.send (s.dbufGet s.bte.bufIndex))
  | .stopOk => some .stop
  | .stopFail => some .stop

/-! ## The transition function (R132, R153) -/

/-- What a protocol state does with a status: `Continue`, `RetryFromStart`, `Abort` (R132), and the not-in-start exit of
`P_START` (R136). -/
inductive Verdict where
  | cont (p : PState)
  | restart
  | abort (c : FailCode)
  | notStart
deriving DecidableEq, Repr

/-- The transition function, row by row as in the table of R153. -/
def verdict (cfg : Params) (b : Bte) (st : Byte) : Verdict :=
  match b.pstate with
  | .start =>
    if isStart st then .cont .slaw
    else if st = stArbLost then .restart
    else .notStart
  | .slaw =>
    if st = stSlawAck then .cont (if b.xaw = 2 then .addrH else .addrL)
    else if st = stSlawNack then (if cfg.maxIter ≤ b.iter + 1 then .abort .retry else .restart)
    else if st = stArbLost then .restart
    else .abort .status
  | .addrH =>
    if st = stTxAck then .cont .addrL
    else if st = stTxNack then .abort .byteNack
    else if st = stArbLost then .restart
    else .abort .status
  | .addrL =>
    if st = stTxAck then .cont (if b.xkind = .rd then .rstart else .wdata)
    else if st = stTxNack then .abort .byteNack
    else if st = stArbLost then .restart
    else .abort .status
  | .rstart =>
    if isStart st then .cont .slar
    else if st = stArbLost then .restart
    else .abort .status
  | .slar =>
    if st = stSlarAck then .cont .rdata
    else if st = stSlarNack then .abort .byteNack
    else if st = stArbLost then .restart
    else .abort .status
  | .rdata =>
    if st = b.expected then .cont .rdata
    else if st = stArbLost then .restart
    else .abort .status
  | .wdata =>
    if st = stTxAck then .cont .wdata
    else if st = stTxNack then .abort .byteNack
    else if st = stArbLost then .restart
    else .abort .status
  | .idle => .cont .idle
  | .stopOk => .cont .stopOk
  | .stopFail => .cont .stopFail

/-! ## The start of a transaction -/

/-- Start of a transaction (R133) and entry to `P_START` (R134): the operands are latched, `ITER`, `OWNED` and `BIDX` are
0. `COUNT`, `ERR` and `DBUF` are not touched. -/
def State.startXfer (kind : XKind) (dev : DevAddr) (aw : BitVec 2) (off : Half) (n : Byte) (s : State) : State :=
  { s with bte := { s.bte with xkind := kind, xdev := dev, xaw := aw, xoff := off, xlen := n,
                               iter := 0, owned := false, bidx := 0, pstate := .start } }

/-- `MemRead(dev, aw, off, n)` begins (R160). -/
def State.memRead (dev : DevAddr) (aw : BitVec 2) (off : Half) (n : Byte) (s : State) : State :=
  s.startXfer .rd dev aw off n

/-- `MemWrite(dev, aw, off, n)` begins (R161). -/
def State.memWrite (dev : DevAddr) (aw : BitVec 2) (off : Half) (n : Byte) (s : State) : State :=
  s.startXfer .wr dev aw off n

/-! ## One completed primitive -/

/-- What the inspected status writes besides `PSTATE`: `BSTAT` always (R132); `OWNED` at a start status (R134, R142);
`ITER` at a select-NACK (R137); the data byte and `BIDX` at an accepted data byte (R146, R149). -/
def State.observe (st d : Byte) (s : State) : State :=
  let b : Bte := { s.bte with bstat := st }
  match s.bte.pstate with
  | .start | .rstart => { s with bte := if isStart st then { b with owned := true } else b }
  | .slaw => { s with bte := if st = stSlawNack then { b with iter := b.iter + 1 } else b }
  | .rdata =>
    if st = b.expected then
      { s.dbufSet b.bufIndex d with bte := { b with bidx := b.bidx + 1 } }
    else { s with bte := b }
  | .wdata => { s with bte := if st = stTxAck then { b with bidx := b.bidx + 1 } else b }
  | _ => { s with bte := b }

/-- `Continue(p)`. A data phase that is over goes on to `P_STOP_OK` without a primitive (R146, R149). -/
def State.enter (p : PState) (s : State) : State :=
  if (p = .rdata ∨ p = .wdata) ∧ s.bte.atEnd = true then { s with bte := { s.bte with pstate := .stopOk } }
  else { s with bte := { s.bte with pstate := p } }

/-- `RetryFromStart`: to `P_START`, whose entry sets `BIDX <- 0`; no STOP, `ITER` unchanged (R134, R139, R145). -/
def State.restart (s : State) : State :=
  { s with bte := { s.bte with pstate := .start, bidx := 0 } }

/-- `Abort(code)`: to `P_STOP_FAIL` with the code remembered (R132). -/
def State.abort (c : FailCode) (s : State) : State :=
  { s with bte := { s.bte with pstate := .stopFail, xcode := c } }

/-- How a transaction ends (R131): `Ok(XLEN)`, or `Fail` with the code in `ERR`. -/
inductive XferResult where
  | ok
  | failed
deriving DecidableEq, Repr

/-- The exit without STOP (R136, R151): `COUNT <- 0`, `ERR <- E_NOT_START`, `PSTATE <- P_IDLE`. -/
def State.exitNoStop (s : State) : State :=
  { s.raise .notStart with bte := { s.bte with count := 0, pstate := .idle } }

/-- The engine takes the status `st` (and data byte `d`) of the outstanding primitive. The result is given when the
transaction ends in this very step, which is only at the exit without STOP. -/
def bteStatus (st d : Byte) (s : State) : State × Option XferResult :=
  match verdict s.cfg s.bte st with
  | .cont p => ((s.observe st d).enter p, none)
  | .restart => ((s.observe st d).restart, none)
  | .abort c => ((s.observe st d).abort c, none)
  | .notStart =>
    if s.bte.owned then ((s.observe st d).abort .notStart, none)
    else ((s.observe st d).exitNoStop, some .failed)

/-- The data byte of a completed primitive, for the history: a receive returns one (R72). -/
def Prim.returns (p : Prim) (d : Byte) : Option Byte :=
  match p with
  | .recvAck | .recvNack => some d
  | _ => none

/-- `P_STOP_OK` and `P_STOP_FAIL`: the STOP, whose status is not inspected, and the result it leaves (R150, R151). -/
def bteStop (s : State) : State × XferResult :=
  match s.bte.pstate with
  | .stopOk => ({ s with bte := { s.bte with count := s.bte.xlen, pstate := .idle } }, .ok)
  | _ => ({ s.raise s.bte.xcode with bte := { s.bte with count := 0, pstate := .idle } }, .failed)

end Sys2Proof.Machine
end

