-- ==== Sys2Proof/Machine/StoreOps.lean ====
section
/-! DEFINITION. The operations behind the store profiles (spec/41_store_profiles.md): the time read and the capacity
load, each as its start and what it does with the result of its transaction. -/

namespace Sys2Proof.Machine

/-- `ReadTime()` begins: `MemRead(CLOCK_DEV, 1, TIME_OFF, TIME_LEN)` (R185). -/
def State.readTime (s : State) : State :=
  s.memRead s.cfg.clockDev clockAw Config.timeOff Config.timeLen

/-- `ReadTime()` after its transaction succeeded: the seven registers are written together (R185, R40). -/
def State.latchTime (s : State) : State := { s with dt := s.decodedTime }

/-- The transfer commands after their transaction (R165, R166, R181 to R184). -/
def finishTransfer (r : XferResult) (s : State) : State :=
  match r with
  | .ok => s.complete false
  | .failed => s.complete true

/-- GETTIME after its transaction (R186); on failure `DT_*` keep their values. -/
def finishGetTime (r : XferResult) (s : State) : State :=
  match r with
  | .ok => s.latchTime.complete false
  | .failed => s.complete true

/-- LOADCFG's first writes, before its transaction: the cursor as after restart (R187). -/
def State.zeroCursor (s : State) : State := { s with cursor := { lastMin := 0, nextIdx := 0 } }

/-- LOADCFG after its transaction (R187): on success the `HW_*` latches, `CAPACITY` and `CFGOK`; on failure `CAPACITY`
and `CFGOK` are 0 and `HW_*` keep their values. -/
def finishLoadCfg (r : XferResult) (s : State) : State :=
  match r with
  | .ok =>
    State.complete false
      { s with hw := s.hwRecord, capacity := capacityOf s.cfg.memAw2 s.hwRecord.memSize, cfgok := true }
  | .failed => State.complete true { s with capacity := 0, cfgok := false }

end Sys2Proof.Machine
end

