-- ==== Sys2Proof/Machine/RecordOps.lean ====
section
/-! DEFINITION. The record store's operations (spec/42_record_store.md): the range check, `ReadRecord`, `WriteRecord`
and CNTVALID's loop. -/

namespace Sys2Proof.Machine

/-- `ReadRecord(i)` up to its transaction (R202): out of range raises `E_RANGE` before any primitive (R201) and goes on
with `out`; otherwise `MemRead(MEM_DEV, MEM_AW, 10*i, 10)` begins. -/
def State.readRecord (i : Half) (out : State → State) (s : State) : State :=
  if s.capacity ≤ i then out (s.raise .range)
  else s.memRead s.cfg.memDev s.memAw (recOffset i) Config.recSize

/-- `ReadRecord` after its transaction (R202): a count other than 10 is `E_INCOMPLETE`, a branch that is never taken
(R205). -/
def recordResult (r : XferResult) (s : State) : State × XferResult :=
  match r with
  | .ok => if s.bte.count = Config.recSize then (s, .ok) else (s.raise .incomplete, .failed)
  | .failed => (s, .failed)

/-- The length WriteRecord sends: one byte for an invalid record, else ten (R203, R206). -/
def State.writeLen (s : State) : Byte := if s.recValid then Config.recSize else 1

/-- `WriteRecord(i)` up to its transaction (R203). -/
def State.writeRecord (i : Half) (out : State → State) (s : State) : State :=
  if s.capacity ≤ i then out (s.raise .range)
  else s.memWrite s.cfg.memDev s.memAw (recOffset i) s.writeLen

/-- RDREC after its transaction (R202). -/
def finishRdRec (r : XferResult) (s : State) : State :=
  match recordResult r s with
  | (s', .ok) => s'.complete false
  | (s', .failed) => s'.complete true

/-- WRREC after its transaction (R203). -/
def finishWrRec (r : XferResult) (s : State) : State :=
  match r with
  | .ok => s.complete false
  | .failed => s.complete true

/-- CNTVALID ends with the count `n`; `FAIL` is always 0 (R204). -/
def State.endCount (n : Half) (s : State) : State := State.complete false { s with res := n }

/-- The head of CNTVALID's loop: `while CIDX < CAPACITY`, read record `CIDX` (R204). -/
def State.countNext (s : State) : State :=
  if s.seq.cidx < s.capacity then s.readRecord s.seq.cidx (State.endCount 0) else s.endCount s.seq.cidx

/-- CNTVALID after a record's transaction: a failure counts as 0, an invalid record ends the count, a valid one goes on
(R204). -/
def finishCount (r : XferResult) (s : State) : State :=
  match recordResult r s with
  | (s', .failed) => s'.endCount 0
  | (s', .ok) =>
    if s'.recValid then State.countNext { s' with seq := { s'.seq with cidx := s'.seq.cidx + 1 } }
    else s'.endCount s'.seq.cidx

end Sys2Proof.Machine
end

