-- ==== Sys2Proof/Machine/ScanOps.lean ====
section
/-! DEFINITION. The scheduler (spec/43_scheduler.md): the CheckDue pass and the interval scan, cut at the places where
they wait for the bus or for the transmit sink. -/

namespace Sys2Proof.Machine

/-- Step 6 and completion (R226, R227, R246): `LASTMIN <- CUR`, `FAIL <- 0`. -/
def State.endPass (s : State) : State :=
  State.completePass false { s with cursor := { s.cursor with lastMin := s.seq.cur } }

/-- `Scan(from, to)` on entry (R230). -/
def State.enterScan (more : Bool) (from' to' : Minute) (s : State) : State :=
  { s with seq := { s.seq with task := .dueScan more, sstart := s.cursor.nextIdx, wfrom := from', wto := to' } }

/-- The fetch of rule R231, `ReadRecord(NEXTIDX)`, in the pass's last window: a range failure ends the pass. -/
def State.fetchLast (s : State) : State := s.readRecord s.cursor.nextIdx State.endPass

/-- The end of a window's scan (R225): with `more`, the window `[0, CUR)` is scanned next, else the pass ends. -/
def State.endScan (more : Bool) (s : State) : State :=
  if more then (s.enterScan false 0 s.seq.cur).fetchLast else s.endPass

/-- The fetch of rule R231: a range failure ends the scan of this window. -/
def State.fetch (more : Bool) (s : State) : State := s.readRecord s.cursor.nextIdx (State.endScan more)

/-- Steps 2 to 5 after a good time (R224, R225, R227). -/
def State.windows (s : State) : State :=
  let cur := s.dt.minuteOfDay
  let s' : State := { s with seq := { s.seq with cur := cur } }
  if cur = s.cursor.lastMin then s'.endPass
  else if s.cursor.lastMin < cur then (s'.enterScan false s.cursor.lastMin cur).fetch false
  else (s'.enterScan true s.cursor.lastMin Config.dayMinutes).fetch true

/-- CheckDue after the time read's transaction (R222, R223). -/
def finishDueTime (r : XferResult) (s : State) : State :=
  match r with
  | .failed => s.completePass true
  | .ok =>
    if s.decodedTime.bad then (s.latchTime.raise .badTime).completePass true
    else s.latchTime.windows

/-- Advance and guard (R236, R237). -/
def State.advance (more : Bool) (s : State) : State :=
  let s' : State := { s with cursor := { s.cursor with nextIdx := nextAfter s.capacity s.cursor.nextIdx } }
  if s'.cursor.nextIdx = s'.seq.sstart then s'.endScan more else s'.fetch more

/-- `Transmit(DBUF[1], DBUF[2], DBUF[9][0])` begins (R235, R47, R114): the port is driven and the sequencer waits. -/
def State.transmit (more : Bool) (s : State) : State :=
  { s with tx := { major := s.dbufGet 1, minor := s.dbufGet 2, cmd := (s.dbufGet 9).getLsbD 0, req := true },
           seq := { s.seq with task := .dueTx more } }

/-- `TX_ACK = 1`: the `Transmit` is over, `TX_REQ <- 0` (R47), and the scan goes on (R236). -/
def State.txDone (more : Bool) (s : State) : State :=
  State.advance more
    { s with tx := { s.tx with req := false },
             seq := { s.seq with task := .dueScan more },
             env := { s.env with txs := s.env.txs ++ [⟨s.tx.major, s.tx.minor, s.tx.cmd⟩] } }

/-- An invalid record under the cursor (R232). -/
def State.scanInvalid (more : Bool) (s : State) : State :=
  if s.cursor.nextIdx = 0 then s.endScan more
  else
    let s' : State := { s with cursor := { s.cursor with nextIdx := 0 } }
    if s'.seq.sstart = 0 then s'.endScan more else s'.fetch more

/-- The record in `DBUF[0..9]` examined (R232 to R237). -/
def State.scanRecord (more : Bool) (s : State) : State :=
  if s.recValid then
    if s.inWindow then
      if s.fires && decide (s.seq.mode = .normal) then s.transmit more else s.advance more
    else s.endScan more
  else s.scanInvalid more

/-- A scan after a record's transaction: a read failure ends the scan of this window, cursor unchanged (R231). -/
def finishScan (more : Bool) (r : XferResult) (s : State) : State :=
  match recordResult r s with
  | (s', .failed) => s'.endScan more
  | (s', .ok) => s'.scanRecord more

/-- `CheckDue(mode)` begins, after `ERR <- E_NONE`: `MODE <- mode` and the time read (R227). -/
def State.checkDue (mode : Mode) (s : State) : State :=
  State.readTime { s with seq := { s.seq with task := .dueTime, mode := mode } }

end Sys2Proof.Machine
end

