-- ==== Sys2Proof/Machine/Sequencer.lean ====
section
/-! DEFINITION. The sequencer and the host port, instant by instant (spec/10_state.md R22, R53, spec/40 R167, spec/44
R262 to R267): what one instant of the outside does to a busy and to an idle block, and the run of an operation to its
completion. -/

namespace Sys2Proof.Machine

/-! ## The host port -/

/-- The register at a host address, as an idle block reads it (R23, R52). Multi-byte registers are little-endian in the
map; reserved addresses read 0x00. -/
def State.readReg (s : State) (a : HostAddr) : Byte :=
  if a.getLsbD 8 then s.dbufGet (a.setWidth 8)
  else
    match a.toNat with
    | 0x00 => s.cmd
    | 0x01 => s.statusByte
    | 0x02 => s.ctrlByte
    | 0x03 => s.err
    | 0x04 => s.ops.dev
    | 0x05 => s.ops.off.extractLsb' 0 8
    | 0x06 => s.ops.off.extractLsb' 8 8
    | 0x07 => s.ops.len
    | 0x08 => s.bte.count
    | 0x09 => s.ops.idx.extractLsb' 0 8
    | 0x0A => s.ops.idx.extractLsb' 8 8
    | 0x0B => s.res.extractLsb' 0 8
    | 0x0C => s.res.extractLsb' 8 8
    | 0x0D => s.capacity.extractLsb' 0 8
    | 0x0E => s.capacity.extractLsb' 8 8
    | 0x0F => s.bte.iter
    | 0x10 => s.cursor.lastMin.extractLsb' 0 8
    | 0x11 => s.cursor.lastMin.extractLsb' 8 8
    | 0x12 => s.cursor.nextIdx.extractLsb' 0 8
    | 0x13 => s.cursor.nextIdx.extractLsb' 8 8
    | 0x14 => s.dt.sec
    | 0x15 => s.dt.min
    | 0x16 => s.dt.hour
    | 0x17 => s.dt.wday
    | 0x18 => s.dt.day
    | 0x19 => s.dt.mon
    | 0x1A => s.dt.year
    | 0x1B => s.hw.ver
    | 0x1C => s.hw.mtype
    | 0x1D => s.hw.memSize.extractLsb' 0 8
    | 0x1E => s.hw.memSize.extractLsb' 8 8
    | 0x1F => s.hw.memSize.extractLsb' 16 8
    | 0x20 => s.hw.memSize.extractLsb' 24 8
    | 0x21 => s.hw.magic0
    | 0x22 => s.hw.magic1
    | 0x23 => s.bte.bstat
    | _ => 0

/-- The address of `CMD` (R23). -/
abbrev addrCmd : HostAddr := 0x000
/-- The address of `STATUS` (R23). -/
abbrev addrStatus : HostAddr := 0x001
/-- The address of `CTRL` (R23). -/
abbrev addrCtrl : HostAddr := 0x002

/-- Replace the low or the high byte of a 16-bit register (R23). -/
def setLow (h : Half) (v : Byte) : Half := h.extractLsb' 8 8 ++ v
/-- See `setLow`. -/
def setHigh (h : Half) (v : Byte) : Half := v ++ h.extractLsb' 0 8

/-- A host write to an idle block at an address other than `CMD` (R23, R24 to R30, R34, R52): read-only and reserved
addresses ignore it, `OVR` is not set. -/
def State.writeReg (a : HostAddr) (v : Byte) (s : State) : State :=
  if a.getLsbD 8 then s.dbufSet (a.setWidth 8) v
  else
    match a.toNat with
    | 0x02 => s.ctrlWrite v
    | 0x04 => { s with ops := { s.ops with dev := v } }
    | 0x05 => { s with ops := { s.ops with off := setLow s.ops.off v } }
    | 0x06 => { s with ops := { s.ops with off := setHigh s.ops.off v } }
    | 0x07 => { s with ops := { s.ops with len := v } }
    | 0x09 => { s with ops := { s.ops with idx := setLow s.ops.idx v } }
    | 0x0A => { s with ops := { s.ops with idx := setHigh s.ops.idx v } }
    | _ => s

/-- A host access to an idle block, `CMD` writes apart (R22: a read has no side effect). -/
def State.idleHost (h : HostAccess) (s : State) : State :=
  match h with
  | .read a => s.logRead a (s.readReg a)
  | .write a v => s.writeReg a v

/-- A host access to a busy block (R53): a write of `CTRL` takes effect, any other write is discarded with `OVR <- 1`; a
read of `STATUS` or `CTRL` is current, any other read returns an unspecified value (U6). -/
def State.busyHost (h : HostAccess) (s : State) : State :=
  match h with
  | .read a => if a = addrStatus ∨ a = addrCtrl then s.logRead a (s.readReg a) else s.drawRead a
  | .write a v => if a = addrCtrl then s.ctrlWrite v else s.discard

/-- The host's access of an instant, if there is one. -/
def Instant.onHost (i : Instant) (f : HostAccess → State → State) (s : State) : State :=
  match i.host with
  | some h => f h s
  | none => s

/-! ## One step of the sequencer -/

/-- The operation that ran a transaction gets its result (R275 (3), and each command's rule). -/
def finish (r : XferResult) (s : State) : State :=
  match s.seq.task with
  | .idle => s
  | .transfer => finishTransfer r s
  | .getTime => finishGetTime r s
  | .loadCfg => finishLoadCfg r s
  | .rdRec => finishRdRec r s
  | .wrRec => finishWrRec r s
  | .cntValid => finishCount r s
  | .dueTime => finishDueTime r s
  | .dueScan more => finishScan more r s
  | .dueTx _ => s

/-- The engine takes a status, and a transaction that ends by it returns to its operation. -/
def takeStatus (p : Prim) (st d : Byte) (s : State) : State :=
  match bteStatus st d (s.logPrim ⟨p, some st, p.returns d⟩) with
  | (s', none) => s'
  | (s', some r) => finish r s'

/-- The engine issues STOP, which completes at once (R73), and the transaction returns to its operation. -/
def takeStop (s : State) : State :=
  finish (bteStop (s.logPrim ⟨.stop, none, none⟩)).2 (bteStop (s.logPrim ⟨.stop, none, none⟩)).1

/-- One step of a running operation (R167): a completed primitive, a STOP, or an acknowledged transmission; nothing while
the environment has not answered (R73, R47, R312). -/
def seqStep (i : Instant) (s : State) : State :=
  match s.seq.task with
  | .dueTx more => if i.txAck then s.txDone more else s
  | _ =>
    match s.request with
    | none => s.enter s.bte.pstate
    | some .stop => takeStop s
    | some p =>
      match i.bus with
      | some (st, d) => takeStatus p st d s
      | none => s

/-! ## One instant -/

/-- One instant of a busy block: RESET over everything (R267), the host access (R22: between steps of the sequencer,
never inside one), one step of the sequencer, and the TICK edge, latched last so that it wins over the clearing of
`TICKP` (R246). -/
def busyInstant (i : Instant) (s : State) : State :=
  if i.reset then resetInstant i s
  else State.latchTick i.tick (seqStep i (i.onHost State.busyHost s))

/-- Run the operation that has started until it completes or is reset: one instant of the trace at a time, and, where
the listed instants end, one quiet instant, in which a STOP that is due still goes out. -/
def run : List Instant → State → State
  | [], s => if s.busy then busyInstant Instant.quiet (s.withInputs []) else s.withInputs []
  | i :: rest, s => if s.busy then run rest (busyInstant i (s.withInputs rest)) else s.withInputs (i :: rest)

/-- The operation that has started, run over the state's own trace. -/
def State.runSeq (s : State) : State := run s.env.inputs s

/-- A `CMD` write reaches the block (R31): discarded with `OVR <- 1` while `BUSY = 1` or `HALT = 1`; otherwise accepted,
the command starts (R262), does `body`, and runs to its end. -/
def accept (c : Byte) (body : State → State) (s : State) : State :=
  if s.busy || s.halt then s.discard else (body (s.commandStart c)).runSeq

/-- The tick run (R245): CheckDue(Normal) started by the tick flag. -/
def tickRun (s : State) : State := (s.tickStart.checkDue .normal).runSeq

/-- One instant of an idle block that holds no `CMD` write: the TICK edge is latched (R267: independently of the rest),
the host access takes effect, and a tick run starts if its condition then holds (R245, R264, R267). -/
def idleInstant (i : Instant) (s : State) : State :=
  let s' := i.onHost State.idleHost (s.latchTick i.tick)
  if s'.tickReady then tickRun s' else s'

/-- One instant that holds no `CMD` write to an idle block. -/
def react (i : Instant) (s : State) : State :=
  if i.reset then resetInstant i s
  else if s.busy then busyInstant i s
  else idleInstant i s

/-- The byte of a `CMD` write in this instant (R31). -/
def Instant.cmdWrite? (i : Instant) : Option Byte :=
  match i.host with
  | some (.write a c) => if a = addrCmd then some c else none
  | _ => none

/-- The instants ahead of a step: those listed, and, where these are used up, the next round of those that come without
end (R157: an environment may answer `ST_ARB_LOST` for ever; log entry 3). -/
def Env.upcoming (e : Env) : List Instant :=
  match e.inputs with
  | [] => e.cycle
  | i :: rest => i :: rest

/-- Fetch: the command byte that the next instant of the trace writes to `CMD` of an idle block, and the state the
command finds: that instant is taken from the trace and its TICK edge is latched. None while the block is busy (the
write is then discarded, R53), in reset (R300), and where the next instant writes no `CMD`. -/
def fetchCommand (s : State) : Option (Byte × State) :=
  match s.env.upcoming with
  | [] => none
  | i :: rest =>
    if i.reset || s.busy then none
    else
      match i.cmdWrite? with
      | some c => some (c, (s.withInputs rest).latchTick i.tick)
      | none => none

/-- The next instant of the trace, where it is no command to an idle block; a quiet one where nothing is ahead. -/
def nextInstant (s : State) : State :=
  match s.env.upcoming with
  | [] => react Instant.quiet s
  | i :: rest => react i (s.withInputs rest)

end Sys2Proof.Machine
end

