-- ==== Sys2Proof/Machine/BusCommands.lean ====
section
/-! DEFINITION. The raw bus transactions (spec/40_bus_transaction.md R165, R166), operand form B. -/

namespace Sys2Proof.Machine

/-- A transfer command's pseudocode after `ERR <- E_NONE`: the transaction whose result is the command's. -/
def State.transfer (start : State → State) (s : State) : State :=
  start { s with seq := { s.seq with task := .transfer } }

/-- BREAD (R165). -/
def execBread (s : State) : Host.Outcome State Fault Refusal :=
  .next (accept (encodeByte .bread) (State.transfer (fun s => s.memRead s.opDev s.opAw s.ops.off s.ops.len)) s)

/-- BWRITE (R166). -/
def execBwrite (s : State) : Host.Outcome State Fault Refusal :=
  .next (accept (encodeByte .bwrite) (State.transfer (fun s => s.memWrite s.opDev s.opAw s.ops.off s.ops.len)) s)

end Sys2Proof.Machine
end

