-- ==== Sys2Proof/Machine/RecordCommands.lean ====
section
/-! DEFINITION. The record store's commands (spec/42_record_store.md R202 to R204). -/

namespace Sys2Proof.Machine

/-- RDREC (R202): `ReadRecord(IDX)`; out of range completes with `E_RANGE` and no primitive (R201). -/
def execRdrec (s : State) : Host.Outcome State Fault Refusal :=
  .next
    (accept (encodeByte .rdrec)
      (fun s => State.readRecord s.ops.idx (State.complete true) { s with seq := { s.seq with task := .rdRec } }) s)

/-- WRREC (R203): `WriteRecord(IDX)`. -/
def execWrrec (s : State) : Host.Outcome State Fault Refusal :=
  .next
    (accept (encodeByte .wrrec)
      (fun s => State.writeRecord s.ops.idx (State.complete true) { s with seq := { s.seq with task := .wrRec } }) s)

/-- CNTVALID (R204): `CIDX <- 0` and the loop. -/
def execCntvalid (s : State) : Host.Outcome State Fault Refusal :=
  .next
    (accept (encodeByte .cntvalid)
      (fun s => State.countNext { s with seq := { s.seq with task := .cntValid, cidx := 0 } }) s)

end Sys2Proof.Machine
end

