-- ==== Sys2Proof/Machine/SchedCommands.lean ====
section
/-! DEFINITION. The scheduler's commands (spec/43_scheduler.md R220, R221). -/

namespace Sys2Proof.Machine

/-- CHKDUE.N (R220): `CheckDue(Normal)`. -/
def execChkdueN (s : State) : Host.Outcome State Fault Refusal :=
  .next (accept (encodeByte .chkdueN) (State.checkDue .normal) s)

/-- CHKDUE.I (R221): `CheckDue(Init)`. -/
def execChkdueI (s : State) : Host.Outcome State Fault Refusal :=
  .next (accept (encodeByte .chkdueI) (State.checkDue .init) s)

end Sys2Proof.Machine
end

