-- ==== Sys2Proof/Machine/StoreCommands.lean ====
section
/-! DEFINITION. The store profiles' commands (spec/41_store_profiles.md R181 to R187). -/

namespace Sys2Proof.Machine

/-- CLKREAD (R181): the clock profile `(CLOCK_DEV, 1)`. -/
def execClkread (s : State) : Host.Outcome State Fault Refusal :=
  .next (accept (encodeByte .clkread) (State.transfer (fun s => s.memRead s.cfg.clockDev clockAw s.ops.off s.ops.len)) s)

/-- CLKWRITE (R182). -/
def execClkwrite (s : State) : Host.Outcome State Fault Refusal :=
  .next
    (accept (encodeByte .clkwrite) (State.transfer (fun s => s.memWrite s.cfg.clockDev clockAw s.ops.off s.ops.len)) s)

/-- MEMREAD (R183): the memory profile `(MEM_DEV, MEM_AW)`; no range check. -/
def execMemread (s : State) : Host.Outcome State Fault Refusal :=
  .next (accept (encodeByte .memread) (State.transfer (fun s => s.memRead s.cfg.memDev s.memAw s.ops.off s.ops.len)) s)

/-- MEMWRITE (R184); no range check. -/
def execMemwrite (s : State) : Host.Outcome State Fault Refusal :=
  .next
    (accept (encodeByte .memwrite) (State.transfer (fun s => s.memWrite s.cfg.memDev s.memAw s.ops.off s.ops.len)) s)

/-- GETTIME (R186). -/
def execGettime (s : State) : Host.Outcome State Fault Refusal :=
  .next (accept (encodeByte .gettime) (fun s => State.readTime { s with seq := { s.seq with task := .getTime } }) s)

/-- LOADCFG (R187): the cursor is zeroed, then the hardware-info record is read. -/
def execLoadcfg (s : State) : Host.Outcome State Fault Refusal :=
  .next
    (accept (encodeByte .loadcfg)
      (fun s =>
        State.memRead s.cfg.clockDev clockAw (s.cfg.hwinfoOff.setWidth 16) Config.hwinfoLen
          { s.zeroCursor with seq := { s.seq with task := .loadCfg } })
      s)

end Sys2Proof.Machine
end

