-- ==== Sys2Proof/Machine/SystemCommands.lean ====
section
/-! DEFINITION. The commands that touch no bus (spec/44_system.md R260, R261). -/

namespace Sys2Proof.Machine

/-- NOP (R260): `ERR <- E_NONE ; FAIL <- 0`. -/
def execNop (s : State) : Host.Outcome State Fault Refusal :=
  .next (accept (encodeByte .nop) (State.complete false) s)

/-- ILLEGAL (R261), any byte that decodes to no command: `ERR <- E_ILLCMD ; FAIL <- 1`. -/
def execIllegal (c : Byte) (s : State) : Host.Outcome State Fault Refusal :=
  .next (accept c (fun s => (s.raise .illCmd).complete true) s)

end Sys2Proof.Machine
end

