-- ==== Sys2Proof/Machine/Dispatch.lean ====
section
/-! DEFINITION. The meaning of a command: what a `CMD` write of its byte does (spec/44_system.md R262), one arm per
constructor. -/

namespace Sys2Proof.Machine

def exec (i : Instr) (s : State) : Host.Outcome State Fault Refusal :=
  match i with
  | .nop => Sys2Proof.Machine.execNop s
  | .bread => Sys2Proof.Machine.execBread s
  | .bwrite => Sys2Proof.Machine.execBwrite s
  | .clkread => Sys2Proof.Machine.execClkread s
  | .clkwrite => Sys2Proof.Machine.execClkwrite s
  | .memread => Sys2Proof.Machine.execMemread s
  | .memwrite => Sys2Proof.Machine.execMemwrite s
  | .gettime => Sys2Proof.Machine.execGettime s
  | .loadcfg => Sys2Proof.Machine.execLoadcfg s
  | .rdrec => Sys2Proof.Machine.execRdrec s
  | .wrrec => Sys2Proof.Machine.execWrrec s
  | .cntvalid => Sys2Proof.Machine.execCntvalid s
  | .chkdueN => Sys2Proof.Machine.execChkdueN s
  | .chkdueI => Sys2Proof.Machine.execChkdueI s

end Sys2Proof.Machine
end

