-- ==== Sys2Proof/Machine/Step.lean ====
section
/-! DEFINITION. One step of the machine: the next instant of the outside (log entry 3). -/

namespace Sys2Proof.Machine

/-- One step. A command byte written to `CMD` of an idle block is decoded and run (R31, R101, R262), an undefined byte
runs ILLEGAL (R106, R261); any other instant is taken as it is. -/
def step (s : State) : Host.Outcome State Fault Refusal :=
  match fetchCommand s with
  | some (c, s') =>
    match decodeByte c with
    | .ok i => exec i s'
    | .error _ => execIllegal c s'
  | none => .next (nextInstant s)

/-- The state whose next instant is the host's `CMD` write of the byte `w`: where this machine takes its next
instruction (log entry 1). A busy or halted block would discard the write (R31), so both are cleared. -/
def State.withFetchWord (s : State) (nbits w : Nat) : State :=
  { s with busy := false, halt := false,
           env := { s.env with inputs :=
             { host := some (.write addrCmd (BitVec.ofNat 8 (w % 2 ^ nbits))) } :: s.env.inputs } }

end Sys2Proof.Machine
end

