-- ==== Sys2Proof/Machine/RefEnv.lean ====
section
/-! DEFINITION. The reference environment for tests and its fault injection (spec/20_memory.md R93, R94), and the block
run in closed loop with it. It is NOT part of the block: nothing in `step` uses it, and it says nothing about real
devices (R95). -/

namespace Sys2Proof.Machine

/-- A reference device (R93): its bytes (an unlisted byte is 0x00), the number of address bytes, the address pointer, and
how many selections it will refuse. -/
structure RefDevice where
  size : Nat
  aw : Nat
  mem : Memory := []
  ptr : Nat := 0
  busy : Nat := 0
deriving DecidableEq, Repr

/-- `sel` (R93): the selected device, its direction (true: read), the address bytes taken and the pointer accumulator. -/
structure RefSel where
  dev : DevAddr
  reading : Bool
  taken : Nat
  acc : Nat
deriving DecidableEq, Repr

/-- The state of the reference environment (R93), with the primitives counted and the statuses a test forces (R94). -/
structure RefEnv where
  devs : List (DevAddr × RefDevice)
  owned : Bool := false
  sel : Option RefSel := none
  afterStart : Bool := false
  wrote : Bool := false
  /-- `WBUSY`: the busy count a device takes after a write. -/
  wbusy : Nat := 0
  /-- Primitives issued so far, STOP included. -/
  count : Nat := 0
  /-- Primitive number and the status forced on it. -/
  forced : List (Nat × Byte) := []
deriving DecidableEq, Repr

/-- The byte at an offset of a device. -/
def RefDevice.get (d : RefDevice) (a : Nat) : Byte := (Memory.read? d.mem a).getD 0

/-- The device at an address. -/
def RefEnv.dev? (e : RefEnv) (a : DevAddr) : Option RefDevice :=
  (e.devs.find? (fun p => p.1 == a)).map (fun p => p.2)

/-- Change the device at an address. -/
def RefEnv.setDev (e : RefEnv) (a : DevAddr) (d : RefDevice) : RefEnv :=
  { e with devs := e.devs.map (fun p => if p.1 == a then (a, d) else p) }

/-- SEND right after a START: the selection (R93). -/
def RefEnv.select (b : Byte) (e : RefEnv) : Byte × RefEnv :=
  let e := { e with afterStart := false }
  let a : DevAddr := b.extractLsb' 1 7
  let reading := b.getLsbD 0
  let nack : Byte := if reading then 0x48 else 0x20
  match e.dev? a with
  | none => (nack, e)
  | some d =>
    if 0 < d.busy then (nack, e.setDev a { d with busy := d.busy - 1 })
    else (if reading then 0x40 else 0x18, { e with sel := some ⟨a, reading, 0, 0⟩ })

/-- SEND with a device selected for write: an address byte or a data byte (R93). -/
def RefEnv.accept (b : Byte) (s : RefSel) (d : RefDevice) (e : RefEnv) : RefEnv :=
  if s.taken < d.aw then
    let acc := s.acc * 256 + b.toNat
    let e := { e with sel := some { s with taken := s.taken + 1, acc := acc } }
    if s.taken + 1 = d.aw then e.setDev s.dev { d with ptr := acc % d.size } else e
  else
    { e.setDev s.dev { d with mem := Memory.write d.mem d.ptr b, ptr := (d.ptr + 1) % d.size } with wrote := true }

/-- SEND (R93). -/
def RefEnv.send (b : Byte) (e : RefEnv) : Byte × RefEnv :=
  if e.afterStart then e.select b
  else
    match e.sel with
    | none => (0x30, e)
    | some s =>
      if s.reading then (0x30, e)
      else
        match e.dev? s.dev with
        | none => (0x30, e)
        | some d => (0x28, e.accept b s d)

/-- RECV_ACK and RECV_NACK (R93): the status asked for and the byte under the pointer. -/
def RefEnv.recv (st : Byte) (e : RefEnv) : (Byte × Byte) × RefEnv :=
  match e.sel with
  | none => ((0xF8, 0xFF), e)
  | some s =>
    if s.reading then
      match e.dev? s.dev with
      | none => ((0xF8, 0xFF), e)
      | some d => ((st, d.get d.ptr), e.setDev s.dev { d with ptr := (d.ptr + 1) % d.size })
    else ((0xF8, 0xFF), e)

/-- STOP (R93): a device that was written becomes busy, and the bus is released. -/
def RefEnv.stop (e : RefEnv) : RefEnv :=
  let e' : RefEnv :=
    match e.sel with
    | none => e
    | some s =>
      if !s.reading && e.wrote then
        match e.dev? s.dev with
        | none => e
        | some d => e.setDev s.dev { d with busy := e.wbusy }
      else e
  { e' with owned := false, sel := none, afterStart := false, wrote := false }

/-- The answer to a primitive that no test forces (R93): status, data byte, and the environment after it. -/
def RefEnv.plain (p : Prim) (e : RefEnv) : (Byte × Byte) × RefEnv :=
  match p with
  | .start =>
    ((if e.owned then 0x10 else 0x08, 0),
     { e with owned := true, sel := none, afterStart := true, wrote := false })
  | .send b => (((e.send b).1, 0), (e.send b).2)
  | .recvAck => e.recv 0x50
  | .recvNack => e.recv 0x58
  | .stop => ((0, 0), e.stop)

/-- The answer to a primitive, a forced status before everything else (R94). -/
def RefEnv.answer (p : Prim) (e : RefEnv) : (Byte × Byte) × RefEnv :=
  let e := { e with count := e.count + 1 }
  match e.forced.find? (fun f => f.1 == e.count) with
  | some (_, st) =>
    ((st, 0xEE), if st = 0x38 then { e with owned := false, sel := none, afterStart := false } else e)
  | none => e.plain p

/-- What the environment does in one instant for a busy block: it answers the outstanding primitive, and the transmit
sink acknowledges (R47). -/
def RefEnv.instant (e : RefEnv) (s : State) : Instant × RefEnv :=
  match s.request with
  | some .stop => ({ txAck := s.tx.req }, (e.answer .stop).2)
  | some p => ({ bus := some (e.answer p).1, txAck := s.tx.req }, (e.answer p).2)
  | none => ({ txAck := s.tx.req }, e)

/-- One instant of the closed loop. -/
def closedStep (c : RefEnv × State) : RefEnv × State :=
  ((c.1.instant c.2).2, busyInstant (c.1.instant c.2).1 c.2)

/-- The closed loop until the block is idle, for at most `fuel` instants. -/
def drive : Nat → RefEnv × State → RefEnv × State
  | 0, c => c
  | n + 1, c => if c.2.busy then drive n (closedStep c) else c

/-- The reference clock and memory devices of spec/95_test_vectors.md, section 0, for the default build. -/
def RefEnv.standard : RefEnv :=
  { devs := [(0x68, { size := 64, aw := 1,
                      mem := [(8, 0x01), (9, 0x02), (10, 0x00), (11, 0x80), (12, 0x00), (13, 0x00), (14, 0xA5),
                              (15, 0x5A)] }),
             (0x50, { size := 32768, aw := 2 })] }

end Sys2Proof.Machine
end

