-- ==== Sys2Proof/WellFormed.lean ====
section
/-! DEFINITION. What is well formed: build parameters (spec/00_scope.md R9), command lines (spec/30_encoding.md
R108, R112). A command itself has no operand field (R100), so each of the fourteen is well formed. -/

namespace Sys2Proof

/-- A command carries no field that could be out of range (R100). -/
def Instr.wf (_ : Instr) : Bool := true

/-- The ranges of R9 for the OPEN parameters whose type is wider than their range. -/
def Params.wf (p : Params) : Bool :=
  decide (1 ≤ p.maxIter) && decide (7 ≤ p.hwinfoOff) && decide (p.hwinfoOff ≤ 248)

/-- `dev=<0..127>, aw=<1|2>`, named only by form B (R112). -/
def Line.devOk (l : Line) : Bool :=
  match l.dev with
  | none => true
  | some (d, w) => decide (l.instr.form = .b) && decide (d < 128) && (decide (w = 1) || decide (w = 2))

/-- `off=<0..65535>`, forms B and P (R112). -/
def Line.offOk (l : Line) : Bool :=
  match l.off with
  | none => true
  | some o => (decide (l.instr.form = .b) || decide (l.instr.form = .p)) && decide (o < 65536)

/-- `len=<0..255>`, forms B and P (R112). -/
def Line.lenOk (l : Line) : Bool :=
  match l.len with
  | none => true
  | some n => (decide (l.instr.form = .b) || decide (l.instr.form = .p)) && decide (n < 256)

/-- `idx=<0..65535>`, form R (R112). -/
def Line.idxOk (l : Line) : Bool :=
  match l.idx with
  | none => true
  | some i => decide (l.instr.form = .r) && decide (i < 65536)

/-- `data=[...]`: bytes that fit `DBUF` for forms B and P, exactly ten bytes for form R, none for form Z (R112). -/
def Line.dataOk (l : Line) : Bool :=
  match l.data with
  | none => true
  | some ds =>
    ds.all (fun d => decide (d < 256)) &&
      (match l.instr.form with
       | .z => false
       | .b | .p => decide (ds.length ≤ 256)
       | .r => decide (ds.length = 10))

/-- A command line every value of which is in the stated range (R112: a value out of range is an error of the
script, not of the block). -/
def Line.wf (l : Line) : Bool :=
  l.instr.wf && l.devOk && l.offOk && l.lenOk && l.idxOk && l.dataOk

end Sys2Proof
end

