-- ==== Sys2Proof/Machine/Script.lean ====
section
/-! DEFINITION. The script notation of spec/30_encoding.md R108 to R112: command lines and pseudo-commands as host
accesses, and the directives run against the reference environment. The block knows none of it (R110: "none is a command
of the block"). -/

namespace Sys2Proof.Machine

/-- One host write of a script: `WR a, v`. -/
abbrev HostWrite := HostAddr × Byte

/-- `dev=d, aw=w` as the write of `DEV` (R109). -/
def expandDev : Option (Nat × Nat) → List HostWrite
  | none => []
  | some (d, w) => [(0x004, BitVec.ofNat 8 (d + if w = 2 then 128 else 0))]

/-- `off=o` as the writes of `OFFL` and `OFFH` (R109). -/
def expandOff : Option Nat → List HostWrite
  | none => []
  | some o => [(0x005, BitVec.ofNat 8 o), (0x006, BitVec.ofNat 8 (o / 256))]

/-- `len=n` as the write of `LEN` (R109). -/
def expandLen : Option Nat → List HostWrite
  | none => []
  | some n => [(0x007, BitVec.ofNat 8 n)]

/-- `idx=i` as the writes of `IDXL` and `IDXH` (R109). -/
def expandIdx : Option Nat → List HostWrite
  | none => []
  | some i => [(0x009, BitVec.ofNat 8 i), (0x00A, BitVec.ofNat 8 (i / 256))]

/-- `data=[b0, b1, ...]` from `DBUF[k]` on (R109). -/
def expandData : Nat → List Nat → List HostWrite
  | _, [] => []
  | k, b :: bs => (BitVec.ofNat 9 (0x100 + k), BitVec.ofNat 8 b) :: expandData (k + 1) bs

/-- The operand writes of a command line, in the fixed order of R109. -/
def Line.operandWrites (l : Line) : List HostWrite :=
  expandDev l.dev ++ expandOff l.off ++ expandLen l.len ++ expandIdx l.idx ++ expandData 0 (l.data.getD [])

/-- The expansion of a command line: the operand writes, then the `CMD` write (R109). -/
def Line.expand (l : Line) : List HostWrite := Line.operandWrites l ++ [(addrCmd, encodeByte l.instr)]

/-- The host writes of a list on an idle block, in order; none of them writes `CMD`. -/
def State.writeAll (ws : List HostWrite) (s : State) : State := ws.foldl (fun s w => s.writeReg w.1 w.2) s

/-- A directive of R110. `EXPECT` is a test's own comparison. -/
inductive Directive where
  | wr (a : HostAddr) (v : Byte)
  | rd (a : HostAddr)
  | wait
  | tick
  | reset
  /-- `ENV`: preset a device's busy count (R94). -/
  | envBusy (dev : DevAddr) (k : Nat)
  /-- `ENV`: device contents from an offset on. -/
  | envBytes (dev : DevAddr) (off : Nat) (bs : List Byte)
  /-- `ENV`: force statuses, primitives numbered from the next one on (R94). -/
  | envForce (fs : List (Nat × Byte))
deriving DecidableEq, Repr

/-- A command line as directives. -/
def Line.directives (l : Line) : List Directive := (Line.expand l).map (fun w => .wr w.1 w.2)

/-- `INVALIDATE idx=i` (R111). -/
def invalidate (i : Nat) : List Directive := .wr 0x100 0x00 :: Line.directives { instr := .wrrec, idx := some i }

/-- `PUTREC idx=i, rec={...}` with the ten bytes (R111). -/
def putrec (i : Nat) (rec : List Nat) : List Directive :=
  Line.directives { instr := .wrrec, idx := some i, data := some rec }

/-- `TICKS off` (R111). -/
def ticksOff : List Directive := [.wr addrCtrl 0x00]
/-- `TICKS on` (R111). -/
def ticksOn : List Directive := [.wr addrCtrl 0x01]
/-- `HALT` (R111). -/
def haltLine : List Directive := [.wr addrCtrl 0x02]

/-- `BOOT` (R111, R304). -/
def boot : List Directive :=
  Line.directives { instr := .loadcfg } ++ [.wait] ++ Line.directives { instr := .chkdueI } ++ [.wait] ++ ticksOn

/-- Packed BCD of a number below 100 (R15, R16). -/
def toBcd (n : Nat) : Byte := BitVec.ofNat 8 (n / 10 * 16 + n % 10)

/-- `CLOCK hh:mm wd dd/mm/yy` on the reference clock (R110), with the seconds. -/
def clock (hour min sec wd day mon year : Nat) : Directive :=
  .envBytes 0x68 0 [toBcd sec, toBcd min, toBcd hour, toBcd wd, toBcd day, toBcd mon, toBcd year]

/-- One instant of the machine with nothing after it. -/
def instantStep (i : Instant) (s : State) : State :=
  match step (s.withInputs [i]) with
  | .next s' => s'
  | .fault _ => s
  | .refused _ => s

/-- One directive, `WAIT` with a bound on its instants. -/
def runDirective (fuel : Nat) (c : RefEnv × State) : Directive → RefEnv × State
  | .wr a v => (c.1, instantStep { host := some (.write a v) } c.2)
  | .rd a => (c.1, instantStep { host := some (.read a) } c.2)
  | .wait => drive fuel (c.1, if c.2.busy then c.2 else instantStep Instant.quiet c.2)
  | .tick => (c.1, instantStep { tick := true } c.2)
  | .reset => (c.1, instantStep { reset := true } c.2)
  | .envBusy a k => (match c.1.dev? a with | some d => c.1.setDev a { d with busy := k } | none => c.1, c.2)
  | .envBytes a o bs =>
    (match c.1.dev? a with | some d => c.1.setDev a { d with mem := Memory.writeBytes o bs d.mem } | none => c.1, c.2)
  | .envForce fs => ({ c.1 with forced := fs, count := 0 }, c.2)

/-- A script. -/
def runScript (fuel : Nat) (ds : List Directive) (c : RefEnv × State) : RefEnv × State :=
  ds.foldl (runDirective fuel) c

end Sys2Proof.Machine
end

