-- ==== Sys2Proof/Safety.lean ====
section
/-! DEFINITION. What a safe state of the block is (spec/10_state.md R55), and the words in which the statements speak of
its environment and of what a transaction, a count and a CheckDue pass come to: the answers of a responsive bus, the
primitives of an undisturbed transaction, and the pseudocode of R204 and R238 run over a store as a plain function. -/

namespace Sys2Proof.Machine

/-! ## States -/

/-- The block accepts a command (R31) and no transaction runs (R42). -/
structure Ready (s : State) : Prop where
  busy : s.busy = false
  halt : s.halt = false
  pstate : s.bte.pstate = .idle
  task : s.seq.task = .idle

/-- No instant of the trace asserts RESET. -/
def NoReset (s : State) : Prop := ∀ i ∈ s.env.inputs, i.reset = false

/-- No instant of the trace holds a host access. -/
def NoHost (s : State) : Prop := ∀ i ∈ s.env.inputs, i.host = none

/-- No instant of the trace holds a TICK edge. -/
def NoTick (s : State) : Prop := ∀ i ∈ s.env.inputs, i.tick = false

/-- The state with the instants ahead of its next step listed in its trace: the next round of `cycle` where the trace is
used up. `NoReset s.ahead` says of one `step` what `NoReset s` says of one `exec`. -/
def State.ahead (s : State) : State := s.withInputs s.env.upcoming

/-- A number of steps. -/
def steps : Nat → State → Host.Outcome State Fault Refusal
  | 0, s => .next s
  | n + 1, s =>
    match step s with
    | .next t => steps n t
    | o => o

/-- The largest `CAPACITY` of the build (R188). -/
def maxCapacity (memAw2 : Bool) : Half := if memAw2 then 6553 else 25

/-- A protocol state in which a pass is under way and may still count a select-NACK or move a data byte. -/
def PState.live : PState → Bool
  | .idle | .stopOk | .stopFail => false
  | _ => true

/-- A scan is under way (R230 to R237). -/
def Task.scanning : Task → Bool
  | .dueScan _ | .dueTx _ => true
  | _ => false

/-- A transmission waits for its acknowledgement (R47). -/
def Task.transmitting : Task → Bool
  | .dueTx _ => true
  | _ => false

/-- The invariant: R55 and what it rests on. -/
structure Inv (s : State) : Prop where
  /-- The build parameters are in their ranges (R9). -/
  cfg : s.cfg.wf = true
  /-- `LASTMIN ≤ 1439` (R38, R55). -/
  lastMin : s.cursor.lastMin ≤ 1439
  /-- `CAPACITY ≤ 6553`, 25 with one address byte (R55, R188). -/
  capacity : s.capacity ≤ maxCapacity s.cfg.memAw2
  /-- `NEXTIDX < CAPACITY`, or both are 0 (R39, R55). -/
  nextIdx : s.cursor.nextIdx < s.capacity ∨ (s.capacity = 0 ∧ s.cursor.nextIdx = 0)
  /-- `ITER ≤ MAX_ITER` (R36, R55), below it while a pass is under way (R137). -/
  iter : s.bte.iter ≤ s.cfg.maxIter
  iterLive : s.bte.pstate.live = true → s.bte.iter < s.cfg.maxIter
  /-- `BIDX ≤ XLEN` (R43, R55), below it where a data byte is due (R146, R149). -/
  bidx : s.bte.bidx ≤ s.bte.xlen.setWidth 9
  bidxData : s.bte.pstate = .rdata ∨ s.bte.pstate = .wdata → s.bte.bidx < s.bte.xlen.setWidth 9
  /-- The data phase is over where a transaction is about to succeed (R131). -/
  bidxDone : s.bte.pstate = .stopOk → s.bte.bidx = s.bte.xlen.setWidth 9
  /-- A transaction that is about to fail has one of the four BusFailure codes (R131, R271). -/
  code : s.bte.pstate = .stopFail → 1 ≤ s.bte.xcode.code ∧ s.bte.xcode.code ≤ 4
  /-- `PSTATE = P_IDLE` whenever `BUSY = 0` (R42, R55), and no command is under way then. -/
  idle : s.busy = false → s.bte.pstate = .idle ∧ s.seq.task = .idle
  /-- While an operation runs, a transaction runs, or a transmission waits. -/
  running : s.busy = true → s.seq.task ≠ .idle ∧ (s.seq.task.transmitting = true ↔ s.bte.pstate = .idle)
  /-- `TX_REQ` is 1 exactly while a transmission waits (R47). -/
  txReq : s.tx.req = s.seq.task.transmitting
  /-- A scan has a current minute of the day and a slot under the cursor (R224, R231). -/
  scan : s.seq.task.scanning = true → s.seq.cur ≤ 1439 ∧ s.seq.wto ≤ 1440 ∧ s.cursor.nextIdx < s.capacity
  /-- CNTVALID reads a slot that exists (R204, R208). -/
  count : s.seq.task = .cntValid → s.seq.cidx < s.capacity
  /-- LOADCFG runs with the cursor zeroed (R187). -/
  loadCfg : s.seq.task = .loadCfg → s.cursor.lastMin = 0 ∧ s.cursor.nextIdx = 0
  /-- `ERR` holds a code of R270. -/
  err : s.err ≤ 8
  /-- `DBUF` is in canonical form and within its 256 bytes (R30). -/
  dbuf : Memory.wf s.dbuf = true ∧ Memory.below Config.dbufSize s.dbuf = true

/-! ## A responsive bus -/

/-- The line controller completes the outstanding primitive, and nothing else happens. -/
def Instant.answer (st d : Byte) : Instant := { bus := some (st, d) }

/-- The sink acknowledges, and nothing else happens. -/
def Instant.ack : Instant := { txAck := true }

/-- Every address byte is acknowledged (R77). -/
def addrAnswers (aw : BitVec 2) : List Instant :=
  if aw = 2 then [.answer stTxAck 0, .answer stTxAck 0] else [.answer stTxAck 0]

/-- Each byte arrives with the status its receive expects (R147). -/
def dataAnswers : List Byte → List Instant
  | [] => []
  | [b] => [.answer stRxNack b]
  | b :: c :: bs => .answer stRxAck b :: dataAnswers (c :: bs)

/-- The answers to a Read of the bytes `ds`, its two STARTs being answered `st` and `st2`, with the instant of its STOP
(R71, R135). -/
def readTrace (st st2 : Byte) (aw : BitVec 2) (ds : List Byte) : List Instant :=
  [.answer st 0, .answer stSlawAck 0] ++ addrAnswers aw ++ [.answer st2 0, .answer stSlarAck 0] ++
    dataAnswers ds ++ [Instant.quiet]

/-- The answers to a Write of `n` bytes. -/
def writeTrace (st : Byte) (aw : BitVec 2) (n : Nat) : List Instant :=
  [.answer st 0, .answer stSlawAck 0] ++ addrAnswers aw ++ List.replicate n (.answer stTxAck 0) ++ [Instant.quiet]

/-- Passes whose selection is refused: START, answered with the pass's status of the list, and the select byte not
acknowledged (R137, R138). -/
def busyTrace : List Byte → List Instant
  | [] => []
  | st :: sts => .answer st 0 :: .answer stSlawNack 0 :: busyTrace sts

/-- The answers to the two STARTs of every Read of a sequence, by its place in the sequence. -/
abbrev Starts := Nat → Byte × Byte

/-- Each is one of the two start statuses (R135). -/
def Starts.Ok (f : Starts) : Prop := ∀ k, isStart (f k).1 = true ∧ isStart (f k).2 = true

/-- Those of the sequence from its second Read on. -/
def Starts.next (f : Starts) : Starts := fun k => f (k + 1)

/-- A fresh start, then a repeated one, every time. -/
def plainStarts : Starts := fun _ => (stStart, stRepStart)

/-! ## What an undisturbed transaction puts on the primitive port -/

/-- A primitive with a status and no data byte. -/
def PrimEvent.sent (p : Prim) (st : Byte) : PrimEvent := ⟨p, some st, none⟩

/-- The STOP. -/
def PrimEvent.stopped : PrimEvent := ⟨.stop, none, none⟩

/-- START, the selection for writing, the address bytes, high byte first (R76, R77). -/
def selectPrims (st : Byte) (dev : DevAddr) (aw : BitVec 2) (off : Half) : List PrimEvent :=
  [.sent .start st, .sent (.send (dev ++ 0#1)) stSlawAck] ++
    (if aw = 2 then [.sent (.send (off.extractLsb' 8 8)) stTxAck] else []) ++
    [.sent (.send (off.extractLsb' 0 8)) stTxAck]

/-- The receives: all but the last acknowledged (R146). -/
def dataPrims : List Byte → List PrimEvent
  | [] => []
  | [b] => [⟨.recvNack, some stRxNack, some b⟩]
  | b :: c :: bs => ⟨.recvAck, some stRxAck, some b⟩ :: dataPrims (c :: bs)

/-- A Read that succeeds in one pass (R71). -/
def readPrims (st st2 : Byte) (dev : DevAddr) (aw : BitVec 2) (off : Half) (ds : List Byte) : List PrimEvent :=
  selectPrims st dev aw off ++ [.sent .start st2, .sent (.send (dev ++ 1#1)) stSlarAck] ++ dataPrims ds ++
    [.stopped]

/-- A Write that succeeds in one pass (R71). -/
def writePrims (st : Byte) (dev : DevAddr) (aw : BitVec 2) (off : Half) (ds : List Byte) : List PrimEvent :=
  selectPrims st dev aw off ++ ds.map (fun b => .sent (.send b) stTxAck) ++ [.stopped]

/-- The refused passes (R137, R139: no STOP between attempts). -/
def busyPrims (dev : DevAddr) : List Byte → List PrimEvent
  | [] => []
  | st :: sts => .sent .start st :: .sent (.send (dev ++ 0#1)) stSlawNack :: busyPrims dev sts

/-- The first `n` bytes of `DBUF`. -/
def State.dbufTake (s : State) (n : Nat) : List Byte := (List.range n).map (fun k => s.dbufGet (BitVec.ofNat 8 k))

/-- The engine after a transaction of `n` bytes that met `k` select-NACKs and succeeded (R150, R162). -/
def Bte.done (b : Bte) (kind : XKind) (dev : DevAddr) (aw : BitVec 2) (off : Half) (n : Byte) (k : Byte) : Bte :=
  { pstate := .idle, bidx := n.setWidth 9, owned := true, count := n, iter := k,
    bstat := (match kind with
              | .rd => if n = 0 then stSlarAck else stRxNack
              | .wr => stTxAck),
    xkind := kind, xdev := dev, xaw := aw, xoff := off, xlen := n, xcode := b.xcode }

/-! ## CNTVALID over a store -/

/-- The answers to reading the records of a list, one Read each. -/
def recordsTrace (aw : BitVec 2) : Starts → List (List Byte) → List Instant
  | _, [] => []
  | f, r :: rs => readTrace (f 0).1 (f 0).2 aw r ++ recordsTrace aw f.next rs

/-- Their primitives, the first record's slot being `k`. -/
def recordsPrims (dev : DevAddr) (aw : BitVec 2) : Starts → Nat → List (List Byte) → List PrimEvent
  | _, _, [] => []
  | f, k, r :: rs =>
    readPrims (f 0).1 (f 0).2 dev aw (recOffset (BitVec.ofNat 16 k)) r ++ recordsPrims dev aw f.next (k + 1) rs

/-- Byte `k` of a record. -/
def recByte (r : List Byte) (k : Nat) : Byte := r.getD k 0

/-! ## The pseudocode of the scan as a plain function (R238) -/

/-- What a scan does to the outside. -/
inductive ScanEvent where
  | fetch (i : Half)
  | tx (e : TxEvent)
deriving DecidableEq, Repr

/-- The weekday and date tests on a record (R234). -/
def specFires (dt : DateTime) (r : List Byte) : Bool :=
  (recByte r 6 == 0 || recByte r 6 == dt.wday) &&
    ((recByte r 3 == 0 && recByte r 4 == 0 && recByte r 5 == 0) ||
      (recByte r 3 == dt.day && recByte r 4 == dt.mon && recByte r 5 == dt.year))

/-- The minute of a record (R233). -/
def specMinute (r : List Byte) : Nat := (recByte r 7).toNat * 60 + (recByte r 8).toNat

/-- The transmission of a record under the cursor (R234, R235). -/
def specTx (dt : DateTime) (mode : Mode) (r : List Byte) : List ScanEvent :=
  if specFires dt r && decide (mode = .normal) then
    [.tx ⟨recByte r 1, recByte r 2, (recByte r 9).getLsbD 0⟩]
  else []

/-- `Scan(from, to)` of R238 over a store whose every read succeeds: what it does to the outside and where it leaves
`NEXTIDX`. None where it has not ended after `fuel` record reads. -/
def specScan (cap : Half) (store : Half → List Byte) (dt : DateTime) (mode : Mode) (wfrom wto : Nat) (sstart : Half) :
    Nat → Half → Option (List ScanEvent × Half)
  | 0, _ => none
  | fuel + 1, idx =>
    if recByte (store idx) 0 = 0 then
      if idx = 0 ∨ sstart = 0 then some ([.fetch idx], 0)
      else
        match specScan cap store dt mode wfrom wto sstart fuel 0 with
        | some (es, n) => some (.fetch idx :: es, n)
        | none => none
    else if wfrom ≤ specMinute (store idx) ∧ specMinute (store idx) < wto then
      if nextAfter cap idx = sstart then some (.fetch idx :: specTx dt mode (store idx), nextAfter cap idx)
      else
        match specScan cap store dt mode wfrom wto sstart fuel (nextAfter cap idx) with
        | some (es, n) => some (.fetch idx :: (specTx dt mode (store idx) ++ es), n)
        | none => none
    else some ([.fetch idx], idx)

/-- Steps 3 to 5 of R227 over such a store. -/
def specPass (cap : Half) (store : Half → List Byte) (dt : DateTime) (mode : Mode) (last cur : Nat) (fuel : Nat)
    (next : Half) : Option (List ScanEvent × Half) :=
  if cur = last then some ([], next)
  else if last < cur then specScan cap store dt mode last cur next fuel next
  else
    match specScan cap store dt mode last 1440 next fuel next with
    | none => none
    | some (es, n) =>
      match specScan cap store dt mode 0 cur n fuel n with
      | none => none
      | some (es', n') => some (es ++ es', n')

/-- The answers the outside gives to those events. -/
def eventsTrace (aw : BitVec 2) (store : Half → List Byte) : Starts → List ScanEvent → List Instant
  | _, [] => []
  | f, .fetch i :: es => readTrace (f 0).1 (f 0).2 aw (store i) ++ eventsTrace aw store f.next es
  | f, .tx _ :: es => .ack :: eventsTrace aw store f es

/-- The transmissions among the events, in order. -/
def eventsTx : List ScanEvent → List TxEvent
  | [] => []
  | .fetch _ :: es => eventsTx es
  | .tx e :: es => e :: eventsTx es

/-- The time record's bytes decoded (R83, R185). -/
def specTime (bs : List Byte) : DateTime :=
  { sec := bcd (recByte bs 0), min := bcd (recByte bs 1), hour := bcd (recByte bs 2), wday := bcd (recByte bs 3),
    day := bcd (recByte bs 4), mon := bcd (recByte bs 5), year := bcd (recByte bs 6) }

/-! ## The statements' words for a command that ran one transaction -/

/-- What a transfer command asks of the engine: kind, device, address bytes, offset, length (R103, R165, R166, R181 to
R184). -/
structure Xfer where
  kind : XKind
  dev : DevAddr
  aw : BitVec 2
  off : Half
  len : Byte
deriving DecidableEq, Repr

/-- The transfer commands' transactions; none for the other commands. -/
def State.xfer? (s : State) : Instr → Option Xfer
  | .bread => some ⟨.rd, s.opDev, s.opAw, s.ops.off, s.ops.len⟩
  | .bwrite => some ⟨.wr, s.opDev, s.opAw, s.ops.off, s.ops.len⟩
  | .clkread => some ⟨.rd, s.cfg.clockDev, 1, s.ops.off, s.ops.len⟩
  | .clkwrite => some ⟨.wr, s.cfg.clockDev, 1, s.ops.off, s.ops.len⟩
  | .memread => some ⟨.rd, s.cfg.memDev, s.memAw, s.ops.off, s.ops.len⟩
  | .memwrite => some ⟨.wr, s.cfg.memDev, s.memAw, s.ops.off, s.ops.len⟩
  | .nop | .gettime | .loadcfg | .rdrec | .wrrec | .cntvalid | .chkdueN | .chkdueI => none

/-- The transactions of the commands that run exactly one: `xfer?`, and those of GETTIME, LOADCFG and an in-range RDREC
or WRREC (R186, R187, R202, R203). -/
def State.single? (s : State) : Instr → Option Xfer
  | .gettime => some ⟨.rd, s.cfg.clockDev, 1, 0, 7⟩
  | .loadcfg => some ⟨.rd, s.cfg.clockDev, 1, s.cfg.hwinfoOff.setWidth 16, 8⟩
  | .rdrec => if s.ops.idx < s.capacity then some ⟨.rd, s.cfg.memDev, s.memAw, recOffset s.ops.idx, 10⟩ else none
  | .wrrec =>
    if s.ops.idx < s.capacity then
      some ⟨.wr, s.cfg.memDev, s.memAw, recOffset s.ops.idx, if s.dbufGet 0 = 0 then 1 else 10⟩
    else none
  | i => s.xfer? i

/-- The state after a command that ended well: `CMD`, `SRC`, `FAIL`, `ERR`, the engine, the history (R262, R263). The
command's own results come on top. -/
def State.ended (s : State) (c : Byte) (b : Bte) (ps : List PrimEvent) (rest : List Instant) : State :=
  { s with cmd := c, src := false, fail := false, err := 0, bte := b,
           env := { s.env with inputs := rest, prims := s.env.prims ++ ps } }

/-- The state after a command that failed with code `e` (R275). -/
def State.failed (s : State) (c e : Byte) (b : Bte) (ps : List PrimEvent) (rest : List Instant) : State :=
  { s with cmd := c, src := false, fail := true, err := e, bte := b,
           env := { s.env with inputs := rest, prims := s.env.prims ++ ps } }

/-- The engine after a transaction that ended at its first START, no STOP issued (R136). -/
def Bte.refused (b : Bte) (x : Xfer) (st : Byte) : Bte :=
  { b with pstate := .idle, bidx := 0, owned := false, count := 0, iter := 0, bstat := st, xkind := x.kind,
           xdev := x.dev, xaw := x.aw, xoff := x.off, xlen := x.len }

/-- The engine after a transaction whose selection was refused `MAX_ITER` times (R137, R151). -/
def Xfer.exhausted (x : Xfer) (maxIter : Byte) : Bte :=
  { pstate := .idle, bidx := 0, owned := true, count := 0, iter := maxIter, bstat := stSlawNack, xkind := x.kind,
    xdev := x.dev, xaw := x.aw, xoff := x.off, xlen := x.len, xcode := .retry }

/-- The answers to a transaction that succeeds in its first pass; `st2` is for the second START of a Read. -/
def Xfer.trace (x : Xfer) (st st2 : Byte) (ds : List Byte) : List Instant :=
  match x.kind with
  | .rd => readTrace st st2 x.aw ds
  | .wr => writeTrace st x.aw ds.length

/-- Its primitives. -/
def Xfer.prims (x : Xfer) (st st2 : Byte) (ds : List Byte) : List PrimEvent :=
  match x.kind with
  | .rd => readPrims st st2 x.dev x.aw x.off ds
  | .wr => writePrims st x.dev x.aw x.off ds

/-- `DBUF` after it. -/
def Xfer.dbuf (x : Xfer) (ds : List Byte) (m : Memory) : Memory :=
  match x.kind with
  | .rd => Memory.writeBytes 0 ds m
  | .wr => m

/-- The data bytes it moves: those received, or those of `DBUF` sent. -/
def Xfer.data (x : Xfer) (s : State) (ds : List Byte) : Prop :=
  ds.length = x.len.toNat ∧ (x.kind = .wr → ds = s.dbufTake x.len.toNat)

/-- A primitive that selects `dev` for writing and is not acknowledged. -/
def PrimEvent.selectNack (dev : DevAddr) (p : PrimEvent) : Bool :=
  p.prim == .send (dev ++ 0#1) && p.status == some stSlawNack

/-- A lost START. -/
def PrimEvent.lostStart : PrimEvent := .sent .start stArbLost

/-- The statuses the rule of a protocol state names, `e` being the expected one of a receive (R134 to R149). -/
def PState.named (e : Byte) : PState → List Byte
  | .start | .rstart => [stStart, stRepStart, stArbLost]
  | .slaw => [stSlawAck, stSlawNack, stArbLost]
  | .addrH | .addrL | .wdata => [stTxAck, stTxNack, stArbLost]
  | .slar => [stSlarAck, stSlarNack, stArbLost]
  | .rdata => [e, stArbLost]
  | .idle | .stopOk | .stopFail => []

/-- The status that refuses a byte in a protocol state, selection for writing apart (R140, R141, R143, R149). -/
def PState.byteNack : PState → Option Byte
  | .addrH | .addrL | .wdata => some stTxNack
  | .slar => some stSlarNack
  | _ => none

/-- A transaction runs and its outstanding primitive is `p`, not STOP. -/
structure Outstanding (s : State) (p : Prim) : Prop where
  busy : s.busy = true
  task : s.seq.task.transmitting = false
  request : s.request = some p
  noStop : p ≠ .stop

/-- The block waits for the environment: for the completion of a primitive, or for the transmit sink (R73, R47). -/
structure Waiting (s : State) : Prop where
  busy : s.busy = true
  wait : s.seq.task.transmitting = true ∨ ∃ p, s.request = some p ∧ p ≠ .stop

/-- A transfer command's state after its transaction failed with `e` (R151, R263). -/
def State.transferFailed (s : State) (e : Byte) (b : Bte) (ps : List PrimEvent) (rest : List Instant) : State :=
  { s with busy := false, fail := true, err := e, bte := b, seq := { s.seq with task := .idle },
           env := { s.env with inputs := rest, prims := s.env.prims ++ ps } }

/-- The state once the transaction that ran in `s` has broken off with code `e`, the primitives `ps` issued and the engine
left as `b`, and its operation has acted on the failure (R151, R275 (3)): the transfer commands, GETTIME, RDREC and WRREC
complete with `FAIL` 1, LOADCFG also without a capacity (R187); CNTVALID completes with the count 0 and `FAIL` 0 (R204);
CheckDue's time read ends the pass (R222); a scan ends, so that the pass ends with `LASTMIN` moved (R226) or goes on with the
window `[0, CUR)` (R225). No operation runs a transaction in the two tasks of the last line. -/
def State.brokeOff (s : State) (e : Byte) (b : Bte) (ps : List PrimEvent) (rest : List Instant) : State :=
  let u := s.transferFailed e b ps rest
  match s.seq.task with
  | .transfer | .getTime | .rdRec | .wrRec => u
  | .loadCfg => { u with capacity := 0, cfgok := false }
  | .cntValid => { u with fail := false, res := 0 }
  | .dueTime => { u with tickp := false }
  | .dueScan false => { u with fail := false, tickp := false, cursor := { s.cursor with lastMin := s.seq.cur } }
  | .dueScan true =>
    { u with
      busy := true
      fail := s.fail
      bte := { b with pstate := .start, bidx := 0, owned := false, iter := 0, xkind := .rd, xdev := s.cfg.memDev,
                      xaw := s.memAw, xoff := recOffset s.cursor.nextIdx, xlen := 10 }
      seq := { s.seq with task := .dueScan false, sstart := s.cursor.nextIdx, wfrom := 0, wto := s.seq.cur } }
  | .idle | .dueTx _ => { u with busy := true, fail := s.fail, seq := s.seq }

/-- In `u` the transaction that ran in `s` has broken off with code `e`, and its operation has got control back: the whole
next state, but for a scan in an unreachable state with the cursor outside the store (`Inv.scan`), which would raise
`E_RANGE` on top. -/
structure BrokeOff (s u : State) (e : Byte) (b : Bte) (ps : List PrimEvent) (rest : List Instant) : Prop where
  prims : u.env.prims = s.env.prims ++ ps
  inputs : u.env.inputs = rest
  count : u.bte.count = 0
  bstat : u.bte.bstat = b.bstat
  whole : (s.seq.task.scanning = true → s.cursor.nextIdx < s.capacity) → u = s.brokeOff e b ps rest

/-- `s` with the operands of a profile transfer, `OFF` and `LEN`, and the trace `ins`. -/
def State.withTransfer (s : State) (off : Half) (len : Byte) (ins : List Instant) : State :=
  { s with ops := { s.ops with off := off, len := len }, env := { s.env with inputs := ins } }

/-- The transfer command `i` with those operands, in `s` and answered by `ins`, fails and leaves `u`: how statements name an
arbitrary failing transaction, whatever its failure is. -/
structure Fails (i : Instr) (s : State) (off : Half) (len : Byte) (ins : List Instant) (u : State) : Prop where
  noReset : ∀ j ∈ ins, j.reset = false
  next : exec i (s.withTransfer off len ins) = .next u
  idle : u.busy = false
  fail : u.fail = true

/-! ## A CheckDue pass -/

/-- The primitives of the events of a scan. -/
def eventsPrims (dev : DevAddr) (aw : BitVec 2) (store : Half → List Byte) : Starts → List ScanEvent → List PrimEvent
  | _, [] => []
  | f, .fetch i :: es => readPrims (f 0).1 (f 0).2 dev aw (recOffset i) (store i) ++ eventsPrims dev aw store f.next es
  | f, .tx _ :: es => eventsPrims dev aw store f es

/-- The fetches among the events. -/
def fetches : List ScanEvent → List ScanEvent
  | [] => []
  | .fetch i :: es => .fetch i :: fetches es
  | .tx _ :: es => fetches es

/-- The state `t` is what a pass of the time bytes `bs` and the scan events `es`, leaving `NEXTIDX` at `n`, makes of `s`
(R226, R227, R246). -/
structure PassDone (s t : State) (st st2 : Byte) (f : Starts) (bs : List Byte) (store : Half → List Byte)
    (es : List ScanEvent) (n : Half) (rest : List Instant) : Prop where
  busy : t.busy = false
  fail : t.fail = false
  err : t.err = 0
  tickp : t.tickp = false
  dt : t.dt = specTime bs
  cursor : t.cursor = { lastMin := (specTime bs).minuteOfDay, nextIdx := n }
  txs : t.env.txs = s.env.txs ++ eventsTx es
  prims : t.env.prims =
    s.env.prims ++ readPrims st st2 s.cfg.clockDev 1 0 bs ++ eventsPrims s.cfg.memDev s.memAw store f es
  inputs : t.env.inputs = rest

/-- The answers to a record read that breaks off at its selection with status `sx` (R152). -/
def brokenRead (st sx : Byte) : List Instant := [.answer st 0, .answer sx 0, Instant.quiet]

/-- Who starts a CheckDue pass: CHKDUE.N, CHKDUE.I, or the tick flag (R220, R221, R245). -/
inductive DueBy where
  | normal
  | init
  | tick
deriving DecidableEq, Repr

/-- The mode of the pass. -/
def DueBy.mode : DueBy → Mode
  | .normal | .tick => .normal
  | .init => .init

/-- What `CMD` holds then: a tick run leaves it (R245). -/
def DueBy.cmd (d : DueBy) (s : State) : Byte :=
  match d with
  | .normal => 0x40
  | .init => 0x41
  | .tick => s.cmd

/-- `STATUS.SRC` then (R32). -/
def DueBy.src : DueBy → Bool
  | .normal | .init => false
  | .tick => true

/-- A tick run needs ticks enabled and a tick pending (R245). -/
def DueBy.May (d : DueBy) (s : State) : Prop := d = .tick → s.tickEn = true ∧ s.tickp = true

/-- The pass, answered by the trace of `s`: the command, or the tick run of an instant in which nothing else happens. -/
def DueBy.run (d : DueBy) (s : State) : Host.Outcome State Fault Refusal :=
  match d with
  | .normal => exec .chkdueN s
  | .init => exec .chkdueI s
  | .tick => step (s.withInputs (Instant.quiet :: s.env.inputs))

/-- A tick run has started and waits for its first START (R245, R227, R185). -/
def State.tickBegun (s : State) : State :=
  { s with
    busy := true, src := true, err := 0, tickp := true
    bte := { s.bte with pstate := .start, bidx := 0, owned := false, iter := 0, xkind := .rd,
                        xdev := s.cfg.clockDev, xaw := 1, xoff := 0, xlen := 7 }
    seq := { s.seq with task := .dueTime, mode := .normal } }

/-- A record with nothing but its minute, 10:00, and its unit (R84). -/
def tenOClock (major : Byte) : List Byte := [1, major, 1, 0, 0, 0, 0, 10, 0, 1]

/-! ## The host port -/

/-- The 16-bit register at the addresses `a` and `a + 1`, little-endian (R23). -/
def State.readHalf (s : State) (a : HostAddr) : Half := s.readReg (a + 1) ++ s.readReg a

/-! ## Host reads erased -/

/-- The instant without a host read. -/
def Instant.mute (i : Instant) : Instant :=
  match i.host with
  | some (.read _) => { i with host := none }
  | _ => i

/-- The state but for what concerns host reads. -/
def State.forgetReads (s : State) : State :=
  { s with env := { s.env with inputs := s.env.inputs.map Instant.mute, cycle := s.env.cycle.map Instant.mute, reads := [],
                               draws := 0 } }

end Sys2Proof.Machine
end

