-- ==== Sys2Proof/Certificates/Slice0/Obligations.lean ====
section
/-! DEFINITION. The statements for the provers. Each docstring names the rule of spec/ it formalises, or says that it is
derived. `Ready`, `NoReset`, the traces of a responsive bus and the words `ended`, `failed`, `PassDone` are of Safety.lean.
A statement about a command speaks of `exec`; `StepRunsDecoded` carries it to `step`. That the outside is a trace of
instants, that a run takes one of them per completed primitive, that a running command has a `Task`, and that primitives and
transmissions stand in histories is the model's form, not a rule of the spec (log entries 3, 4, 5, 6). -/

section
open Sys2Proof Sys2Proof.Machine

/-! ### Decoding -/

/-- R101, R105: words written out bit by bit decode to their commands, one or more of each group. -/
def Obligations.DecodesWords : Prop :=
  decode [0b00000000#8] = .ok (.nop, []) ∧ decode [0b00010001#8] = .ok (.bwrite, []) ∧
  decode [0b00100100#8] = .ok (.gettime, []) ∧ decode [0b00110010#8] = .ok (.cntvalid, []) ∧
  decode [0b01000001#8] = .ok (.chkdueI, [])

/-- R100, R101: the encoder and the decoder are inverse to each other, whatever bytes follow. -/
def Obligations.DecodeEncodeInverse : Prop :=
  (∀ (i : Instr) (rest : List Byte), i.wf = true → decode (encode i ++ rest) = .ok (i, rest)) ∧
  (∀ (c : Byte) (i : Instr), decodeByte c = .ok i → encodeByte i = c)

/-- R106: which bytes are ILLEGAL, how many, and what an accepted one does. -/
def Obligations.IllegalBytes : Prop :=
  (∀ c : Byte, decodeByte c = .error (.illegalCommand c) ↔
    (0x01 ≤ c ∧ c ≤ 0x0F) ∨ (0x12 ≤ c ∧ c ≤ 0x1F) ∨ (0x26 ≤ c ∧ c ≤ 0x2F) ∨ (0x33 ≤ c ∧ c ≤ 0x3F) ∨
      (0x42 ≤ c ∧ c ≤ 0x4F) ∨ 0x50 ≤ c) ∧
  (((List.range 256).map (BitVec.ofNat 8)).filter (fun c => decodeByte c == .error (.illegalCommand c))).length = 242 ∧
  (∀ (s : State) (c : Byte) (rest : List Instant), Ready s → decodeByte c = .error (.illegalCommand c) →
    s.env.inputs = { host := some (.write addrCmd c) } :: rest →
    step s = .next { s with cmd := c, src := false, fail := true, err := 8, env := { s.env with inputs := rest } })

/-- R31, R101, R262 (derived): an idle block's step takes the instant that writes `CMD` and runs the decoded command, the
TICK edge of that instant being latched. -/
def Obligations.StepRunsDecoded : Prop :=
  ∀ (s : State) (i : Instr) (inst : Instant) (rest : List Instant), i.wf = true → s.busy = false →
    inst.reset = false → inst.host = some (.write addrCmd (encodeByte i)) → s.env.inputs = inst :: rest →
    step s = exec i ((s.withInputs rest).latchTick inst.tick)

/-- R274, R279, R312 (derived): nothing is fatal; every step has a next state. -/
def Obligations.StepNeverStops : Prop :=
  ∀ s : State, ∃ t, step s = .next t

/-! ### The commands that touch no bus, and discarded commands -/

/-- R260: NOP. -/
def Obligations.NopCompletes : Prop :=
  ∀ s : State, Ready s → exec .nop s = .next { s with cmd := 0x00, src := false, err := 0, fail := false }

/-- R31, R53, R284 (derived): a command written to a busy or halted block sets `OVR` and does nothing else. -/
def Obligations.CommandDiscarded : Prop :=
  ∀ (i : Instr) (s : State), s.busy = true ∨ s.halt = true → exec i s = .next { s with ovr := true }

/-! ### The transfer commands -/

/-- R165, R181, R183, R71, R150, R162 (derived): the three reads, answered by a responsive bus. Every register, `DBUF`,
the primitives in order, and that nothing else changes. -/
def Obligations.ReadCommandsComplete : Prop :=
  ∀ (s : State) (st st2 : Byte) (ds : List Byte) (rest : List Instant), Ready s →
    isStart st = true → isStart st2 = true →
    ds.length = s.ops.len.toNat →
    (s.env.inputs = readTrace st st2 s.opAw ds ++ rest →
      exec .bread s = .next
        { s.ended 0x10 (s.bte.done .rd s.opDev s.opAw s.ops.off s.ops.len 0)
            (readPrims st st2 s.opDev s.opAw s.ops.off ds) rest with
          dbuf := Memory.writeBytes 0 ds s.dbuf }) ∧
    (s.env.inputs = readTrace st st2 1 ds ++ rest →
      exec .clkread s = .next
        { s.ended 0x20 (s.bte.done .rd s.cfg.clockDev 1 s.ops.off s.ops.len 0)
            (readPrims st st2 s.cfg.clockDev 1 s.ops.off ds) rest with
          dbuf := Memory.writeBytes 0 ds s.dbuf }) ∧
    (s.env.inputs = readTrace st st2 s.memAw ds ++ rest →
      exec .memread s = .next
        { s.ended 0x22 (s.bte.done .rd s.cfg.memDev s.memAw s.ops.off s.ops.len 0)
            (readPrims st st2 s.cfg.memDev s.memAw s.ops.off ds) rest with
          dbuf := Memory.writeBytes 0 ds s.dbuf })

/-- R166, R182, R184, R71, R150, R162 (derived): the three writes, answered by a responsive bus. The bytes sent are
`DBUF[0]` to `DBUF[LEN-1]`; `DBUF` does not change. -/
def Obligations.WriteCommandsComplete : Prop :=
  ∀ (s : State) (st : Byte) (rest : List Instant), Ready s → isStart st = true →
    (s.env.inputs = writeTrace st s.opAw s.ops.len.toNat ++ rest →
      exec .bwrite s = .next
        (s.ended 0x11 (s.bte.done .wr s.opDev s.opAw s.ops.off s.ops.len 0)
          (writePrims st s.opDev s.opAw s.ops.off (s.dbufTake s.ops.len.toNat)) rest)) ∧
    (s.env.inputs = writeTrace st 1 s.ops.len.toNat ++ rest →
      exec .clkwrite s = .next
        (s.ended 0x21 (s.bte.done .wr s.cfg.clockDev 1 s.ops.off s.ops.len 0)
          (writePrims st s.cfg.clockDev 1 s.ops.off (s.dbufTake s.ops.len.toNat)) rest)) ∧
    (s.env.inputs = writeTrace st s.memAw s.ops.len.toNat ++ rest →
      exec .memwrite s = .next
        (s.ended 0x23 (s.bte.done .wr s.cfg.memDev s.memAw s.ops.off s.ops.len 0)
          (writePrims st s.cfg.memDev s.memAw s.ops.off (s.dbufTake s.ops.len.toNat)) rest))

/-- R30, R78 (derived): the bytes a Read received lie at `DBUF[0]` on, in arrival order, and no other byte changes:
BREAD, CLKREAD, MEMREAD, GETTIME, LOADCFG and RDREC, and the law of the word `Memory.writeBytes` that their other statements
use. -/
def Obligations.ReadBytesLand : Prop :=
  (∀ (s : State) (i : Instr) (x : Xfer) (st st2 : Byte) (ds : List Byte) (rest : List Instant), Ready s →
    isStart st = true → isStart st2 = true → s.single? i = some x → x.kind = .rd → x.data s ds →
    s.env.inputs = x.trace st st2 ds ++ rest →
    ∃ t, exec i s = .next t ∧ t.busy = false ∧ t.fail = false ∧ t.env.inputs = rest ∧
      ∀ k : Byte, t.dbufGet k = if h : k.toNat < ds.length then ds[k.toNat] else s.dbufGet k) ∧
  (∀ (s : State) (ds : List Byte) (k : Byte), ds.length ≤ 256 →
    ({ s with dbuf := Memory.writeBytes 0 ds s.dbuf } : State).dbufGet k =
      if h : k.toNat < ds.length then ds[k.toNat] else s.dbufGet k)

/-- R164: a zero-length Read or Write is legal: its primitives, `Ok(0)`, and `DBUF` untouched. -/
def Obligations.ZeroLength : Prop :=
  ∀ (s : State) (i : Instr) (x : Xfer) (st st2 : Byte) (rest : List Instant), Ready s →
    isStart st = true → isStart st2 = true →
    s.xfer? i = some x → x.len = 0 → s.env.inputs = x.trace st st2 [] ++ rest →
    ∃ t, exec i s = .next t ∧ t.busy = false ∧ t.fail = false ∧ t.bte.count = 0 ∧ t.err = 0 ∧ t.dbuf = s.dbuf ∧
      t.env.inputs = rest ∧
      t.env.prims = s.env.prims ++
        (selectPrims st x.dev x.aw x.off ++
          (match x.kind with
           | .rd => [.sent .start st2, .sent (.send (x.dev ++ 1#1)) stSlarAck]
           | .wr => []) ++ [.stopped])

/-- R158: how many primitives a transaction without restart issues, `aw + n + 5` for a Read and `aw + n + 3` for a
Write. -/
def Obligations.PrimitiveCounts : Prop :=
  ∀ (s : State) (i : Instr) (x : Xfer) (st st2 : Byte) (ds : List Byte) (rest : List Instant), Ready s →
    isStart st = true → isStart st2 = true →
    s.xfer? i = some x → x.data s ds → s.env.inputs = x.trace st st2 ds ++ rest →
    ∃ t, exec i s = .next t ∧ t.busy = false ∧
      t.env.prims.length = s.env.prims.length + x.aw.toNat + x.len.toNat +
        (match x.kind with
         | .rd => 5
         | .wr => 3)

/-- R138: the retry bound. Any trace: at most `MAX_ITER` selections are refused. Fewer refusals, each START answered by
either start status, and then the expected answers: success with `ITER` their number. `MAX_ITER` refusals or more: `E_RETRY`
after exactly `MAX_ITER` selections, and what is left of the refusals stays in the trace. And for the transaction of any
operation: a refusal below the bound restarts, the one that reaches it breaks off. -/
def Obligations.RetryBound : Prop :=
  (∀ (s : State) (i : Instr) (x : Xfer), Ready s → s.cfg.wf = true → s.xfer? i = some x →
    (NoReset s → ∃ t ps, exec i s = .next t ∧ t.env.prims = s.env.prims ++ ps ∧
      (ps.filter (PrimEvent.selectNack x.dev)).length ≤ s.cfg.maxIter.toNat) ∧
    (∀ (sts : List Byte) (st st2 : Byte) (ds : List Byte) (rest : List Instant), (∀ b ∈ sts, isStart b = true) →
      sts.length < s.cfg.maxIter.toNat → isStart st = true → isStart st2 = true → x.data s ds →
      s.env.inputs = busyTrace sts ++ x.trace st st2 ds ++ rest →
      exec i s = .next
        { s.ended (encodeByte i) (s.bte.done x.kind x.dev x.aw x.off x.len (BitVec.ofNat 8 sts.length))
            (busyPrims x.dev sts ++ x.prims st st2 ds) rest with
          dbuf := x.dbuf ds s.dbuf }) ∧
    (∀ (sts : List Byte) (j : Instant) (rest : List Instant), (∀ b ∈ sts, isStart b = true) →
      sts.length = s.cfg.maxIter.toNat → j.reset = false → j.host = none → j.tick = false →
      s.env.inputs = busyTrace sts ++ j :: rest →
      exec i s = .next
        (s.failed (encodeByte i) 4 (x.exhausted s.cfg.maxIter) (busyPrims x.dev sts ++ [.stopped]) rest))) ∧
  (∀ (s : State) (p : Prim) (d : Byte) (rest : List Instant), Outstanding s p → s.bte.pstate = .slaw →
    (s.bte.iter + 1 < s.cfg.maxIter → s.env.inputs = .answer stSlawNack d :: rest →
      step s = .next
        { s with
          bte := { s.bte with pstate := .start, bidx := 0, iter := s.bte.iter + 1, bstat := stSlawNack }
          env := { s.env with inputs := rest, prims := s.env.prims ++ [.sent p stSlawNack] } }) ∧
    (s.bte.iter + 1 = s.cfg.maxIter → s.env.inputs = .answer stSlawNack d :: Instant.quiet :: rest →
      ∃ t u, step s = .next t ∧ t.request = some .stop ∧ step t = .next u ∧
        BrokeOff s u 4
          { s.bte with pstate := .idle, count := 0, iter := s.cfg.maxIter, bstat := stSlawNack, xcode := .retry }
          [.sent p stSlawNack, .stopped] rest))

/-- R136: the not-in-start exit, without STOP where no start was ever seen in the transaction, with STOP otherwise. What
the operation that ran the transaction then does is `State.brokeOff` (R275). -/
def Obligations.NotStartExit : Prop :=
  ∀ (s : State) (st d : Byte) (rest : List Instant), Outstanding s .start → s.bte.pstate = .start →
    st ∉ PState.named 0 .start →
    (s.bte.owned = false → s.env.inputs = .answer st d :: rest →
      ∃ u, step s = .next u ∧
        BrokeOff s u 1 { s.bte with pstate := .idle, count := 0, bstat := st } [.sent .start st] rest) ∧
    (s.bte.owned = true → s.env.inputs = .answer st d :: Instant.quiet :: rest →
      ∃ t u, step s = .next t ∧ t.request = some .stop ∧ step t = .next u ∧
        BrokeOff s u 1 { s.bte with pstate := .idle, count := 0, bstat := st, xcode := .notStart }
          [.sent .start st, .stopped] rest)

/-- R152 (derived; the exception of `P_START` is `NotStartExit`): a status that the protocol state's rule does not name,
outside `P_START`, ends the transaction with `E_STATUS` after a STOP, and a received byte is dropped. -/
def Obligations.UnexpectedStatus : Prop :=
  ∀ (s : State) (p : Prim) (st d : Byte) (rest : List Instant), Outstanding s p → s.bte.pstate ≠ .start →
    st ∉ PState.named s.bte.expected s.bte.pstate → s.env.inputs = .answer st d :: Instant.quiet :: rest →
    ∃ t u, step s = .next t ∧ t.request = some .stop ∧ t.dbuf = s.dbuf ∧ step t = .next u ∧
      BrokeOff s u 3 { s.bte with pstate := .idle, count := 0, bstat := st, xcode := .status }
        [⟨p, some st, p.returns d⟩, .stopped] rest

/-- R155: after a byte-level NACK exactly one more primitive is issued, STOP, and the transaction fails. -/
def Obligations.ByteNackStops : Prop :=
  ∀ (s : State) (p : Prim) (st d : Byte) (rest : List Instant), Outstanding s p →
    s.bte.pstate.byteNack = some st → s.env.inputs = .answer st d :: Instant.quiet :: rest →
    ∃ t u, step s = .next t ∧ t.request = some .stop ∧ step t = .next u ∧
      BrokeOff s u 2 { s.bte with pstate := .idle, count := 0, bstat := st, xcode := .byteNack }
        [⟨p, some st, p.returns d⟩, .stopped] rest

/-- R145: arbitration loss in any state that inspects a status restarts from the initial START: no STOP, `ITER`
unchanged, `BIDX` 0; any number of such losses leaves the transaction restarting. -/
def Obligations.ArbitrationRestarts : Prop :=
  ∀ (s : State) (p : Prim) (d : Byte) (rest : List Instant), Outstanding s p →
    (s.env.inputs = .answer stArbLost d :: rest →
      step s = .next
        { s with
          bte := { s.bte with pstate := .start, bidx := 0, bstat := stArbLost }
          env := { s.env with inputs := rest, prims := s.env.prims ++ [⟨p, some stArbLost, p.returns d⟩] } }) ∧
    (∀ n : Nat, run (List.replicate (n + 1) (.answer stArbLost 0) ++ rest) s =
      run rest
        { s with
          bte := { s.bte with pstate := .start, bidx := 0, bstat := stArbLost }
          env := { s.env with prims :=
            s.env.prims ++ ⟨p, some stArbLost, p.returns 0⟩ :: List.replicate n PrimEvent.lostStart } })

/-- R154 (derived, for the commands that run one transaction): a command that completed has issued STOP exactly once, as
its last primitive, but for `E_NOT_START` with no start seen, where it issued STARTs only, each lost but the last. -/
def Obligations.BusReleased : Prop :=
  ∀ (s t : State) (i : Instr) (x : Xfer), Ready s → NoReset s → s.single? i = some x → exec i s = .next t →
    t.busy = false →
    ∃ ps, t.env.prims = s.env.prims ++ ps ∧
      ((∃ qs, ps = qs ++ [.stopped] ∧ ∀ q ∈ qs, q.prim ≠ .stop) ∨
       (t.err = 1 ∧ t.fail = true ∧
        ∃ n st, ps = List.replicate n PrimEvent.lostStart ++ [.sent .start st] ∧ st ∉ PState.named 0 .start))

/-- R115: the result triple of the transfer commands; no other combination is produced. -/
def Obligations.ResultTriple : Prop :=
  ∀ (s t : State) (i : Instr) (x : Xfer), Ready s → NoReset s → s.xfer? i = some x → exec i s = .next t →
    t.busy = false →
    (t.fail = false ∧ t.bte.count = s.ops.len ∧ t.err = 0) ∨
    (t.fail = true ∧ t.bte.count = 0 ∧ 1 ≤ t.err ∧ t.err ≤ 4)

/-- R163, with the reference environment of R93 (derived; the environment in closed loop is the model's form, log entry 16,
and the premises on its busy counts and forced statuses are added): a Write and then a Read of the same range return the
bytes written, whatever stands in `DBUF` in between. -/
def Obligations.WriteReadRoundTrip : Prop :=
  ∀ (e : RefEnv) (d : RefDevice) (s : State), Ready s → s.cfg.wf = true →
    e.dev? s.opDev = some d → d.aw = s.opAw.toNat → e.forced = [] → d.busy < s.cfg.maxIter.toNat →
    e.wbusy < s.cfg.maxIter.toNat →
    (if s.opAw = 2 then s.ops.off.toNat else s.ops.off.toNat % 256) + s.ops.len.toNat ≤ d.size →
    ∃ k e' s', drive k (e, instantStep { host := some (.write addrCmd 0x11) } s) = (e', s') ∧
      s'.busy = false ∧ s'.fail = false ∧ s'.bte.count = s.ops.len ∧
      ∀ m : Memory, ∃ k' e'' s'',
        drive k' (e', instantStep { host := some (.write addrCmd 0x10) } { s' with dbuf := m }) = (e'', s'') ∧
          s''.busy = false ∧ s''.fail = false ∧ s''.bte.count = s.ops.len ∧
          ∀ b : Byte, b < s.ops.len → s''.dbufGet b = s.dbufGet b

/-! ### The store profiles -/

/-- R186, R185, R83 (derived): GETTIME, answered by a responsive clock. -/
def Obligations.GetTimeCompletes : Prop :=
  ∀ (s : State) (st st2 : Byte) (bs : List Byte) (rest : List Instant), Ready s →
    isStart st = true → isStart st2 = true → bs.length = 7 →
    s.env.inputs = readTrace st st2 1 bs ++ rest →
    exec .gettime s = .next
      { s.ended 0x24 (s.bte.done .rd s.cfg.clockDev 1 0 7 0) (readPrims st st2 s.cfg.clockDev 1 0 bs) rest with
        dbuf := Memory.writeBytes 0 bs s.dbuf
        dt := specTime bs }

/-- R187, R85, R188 (derived): LOADCFG, answered by a responsive clock: the record latched, the capacity computed, the
cursor zeroed. -/
def Obligations.LoadCfgCompletes : Prop :=
  ∀ (s : State) (st st2 b0 b1 b2 b3 b4 b5 b6 b7 : Byte) (rest : List Instant), Ready s →
    isStart st = true → isStart st2 = true →
    s.env.inputs = readTrace st st2 1 [b0, b1, b2, b3, b4, b5, b6, b7] ++ rest →
    ∃ (cap : Half) (size : BitVec 32),
      size.toNat = b2.toNat + 256 * b3.toNat + 65536 * b4.toNat + 16777216 * b5.toNat ∧
      cap.toNat = min size.toNat (2 ^ (8 * s.memAw.toNat)) / 10 ∧
      exec .loadcfg s = .next
        { s.ended 0x25 (s.bte.done .rd s.cfg.clockDev 1 (s.cfg.hwinfoOff.setWidth 16) 8 0)
            (readPrims st st2 s.cfg.clockDev 1 (s.cfg.hwinfoOff.setWidth 16) [b0, b1, b2, b3, b4, b5, b6, b7]) rest with
          dbuf := Memory.writeBytes 0 [b0, b1, b2, b3, b4, b5, b6, b7] s.dbuf
          cursor := { lastMin := 0, nextIdx := 0 }
          hw := { ver := b0, mtype := b1, memSize := size, magic0 := b6, magic1 := b7 }
          capacity := cap
          cfgok := true }

/-- R186, R187, R136 (derived): GETTIME and LOADCFG on a bus that gives no start condition. `DT_*` and `HW_*` keep their
values; LOADCFG leaves no capacity and a zeroed cursor. -/
def Obligations.ClockReadsFail : Prop :=
  ∀ (s : State) (st d : Byte) (rest : List Instant), Ready s → st ∉ PState.named 0 .start →
    s.env.inputs = .answer st d :: rest →
    exec .gettime s = .next
      (s.failed 0x24 1 (s.bte.refused ⟨.rd, s.cfg.clockDev, 1, 0, 7⟩ st) [.sent .start st] rest) ∧
    exec .loadcfg s = .next
      { s.failed 0x25 1 (s.bte.refused ⟨.rd, s.cfg.clockDev, 1, s.cfg.hwinfoOff.setWidth 16, 8⟩ st)
          [.sent .start st] rest with
        cursor := { lastMin := 0, nextIdx := 0 }
        capacity := 0
        cfgok := false }

/-- R188: the capacity's bounds and its table. -/
def Obligations.CapacityBounds : Prop :=
  (∀ m : BitVec 32, (capacityOf true m).toNat = min m.toNat 65536 / 10 ∧ capacityOf true m ≤ 6553 ∧
    (capacityOf false m).toNat = min m.toNat 256 / 10 ∧ capacityOf false m ≤ 25 ∧
    (m < 10 → capacityOf true m = 0 ∧ capacityOf false m = 0)) ∧
  (∀ i : Half, i < 6553 → (recOffset i).toNat = 10 * i.toNat ∧ (recOffset i).toNat ≤ 65520 ∧
    (recOffset i).toNat + 9 ≤ 65529) ∧
  [0#32, 9, 10, 255, 256, 4096, 32768, 65535, 65536, 65537, 131072, 0xFFFFFFFF].map
      (fun m => ((capacityOf true m).toNat, (capacityOf false m).toNat)) =
    [(0, 0), (0, 0), (1, 1), (25, 25), (25, 25), (409, 25), (3276, 25), (6553, 25), (6553, 25), (6553, 25), (6553, 25),
     (6553, 25)]

/-- R15: `bcd`. -/
def Obligations.BcdValue : Prop :=
  ∀ b : Byte, (bcd b).toNat = 10 * (b.extractLsb' 4 4).toNat + (b.extractLsb' 0 4).toNat ∧ (bcd b).toNat ≤ 165 ∧
    ((b.extractLsb' 4 4).toNat ≤ 9 → (b.extractLsb' 0 4).toNat ≤ 9 → (bcd b).toNat ≤ 99)

/-! ### The record store -/

/-- R202, R203 (derived): RDREC and WRREC of a slot that exists, answered by a responsive memory. WRREC sends one byte of
an invalid record and ten of a valid one. -/
def Obligations.RecordCommandsComplete : Prop :=
  ∀ (s : State) (st st2 : Byte) (rest : List Instant), Ready s →
    isStart st = true → isStart st2 = true → s.ops.idx < s.capacity →
    (∀ ds : List Byte, ds.length = 10 → s.env.inputs = readTrace st st2 s.memAw ds ++ rest →
      exec .rdrec s = .next
        { s.ended 0x30 (s.bte.done .rd s.cfg.memDev s.memAw (recOffset s.ops.idx) 10 0)
            (readPrims st st2 s.cfg.memDev s.memAw (recOffset s.ops.idx) ds) rest with
          dbuf := Memory.writeBytes 0 ds s.dbuf }) ∧
    (s.dbufGet 0 = 0 → s.env.inputs = writeTrace st s.memAw 1 ++ rest →
      exec .wrrec s = .next
        (s.ended 0x31 (s.bte.done .wr s.cfg.memDev s.memAw (recOffset s.ops.idx) 1 0)
          (writePrims st s.cfg.memDev s.memAw (recOffset s.ops.idx) [0]) rest)) ∧
    (s.dbufGet 0 ≠ 0 → s.env.inputs = writeTrace st s.memAw 10 ++ rest →
      exec .wrrec s = .next
        (s.ended 0x31 (s.bte.done .wr s.cfg.memDev s.memAw (recOffset s.ops.idx) 10 0)
          (writePrims st s.cfg.memDev s.memAw (recOffset s.ops.idx) (s.dbufTake 10)) rest))

/-- R201: the range check comes before any primitive; with `CAPACITY = 0` every index fails; in range the offset fits 16
bits. -/
def Obligations.RangeCheck : Prop :=
  (∀ s : State, Ready s → s.capacity ≤ s.ops.idx →
    exec .rdrec s = .next { s with cmd := 0x30, src := false, fail := true, err := 6 } ∧
    exec .wrrec s = .next { s with cmd := 0x31, src := false, fail := true, err := 6 }) ∧
  (∀ s : State, s.capacity = 0 → s.capacity ≤ s.ops.idx) ∧
  (∀ s : State, s.capacity ≤ 6553 → s.ops.idx < s.capacity →
    10 * s.ops.idx.toNat ≤ 65520 ∧ (recOffset s.ops.idx).toNat = 10 * s.ops.idx.toNat)

/-- R204 (derived): CNTVALID counts the valid prefix, `rs`, which an invalid record or the end of the store ends. The
records are read from slot 0 on, `min(v + 1, CAPACITY)` of them, and the last one read is in `DBUF`. -/
def Obligations.CountsValidPrefix : Prop :=
  ∀ (s : State) (f : Starts) (rs tail : List (List Byte)) (rest : List Instant), Ready s → f.Ok →
    (∀ r ∈ rs, r.length = 10 ∧ recByte r 0 ≠ 0) → (∀ r ∈ tail, r.length = 10 ∧ recByte r 0 = 0) →
    (rs.length = s.capacity.toNat ∧ tail = []) ∨ (rs.length < s.capacity.toNat ∧ tail.length = 1) →
    s.env.inputs = recordsTrace s.memAw f (rs ++ tail) ++ rest →
    ∃ t, exec .cntvalid s = .next t ∧ t.busy = false ∧ t.cmd = 0x32 ∧ t.src = false ∧ t.fail = false ∧ t.err = 0 ∧
      t.res.toNat = rs.length ∧ t.env.inputs = rest ∧
      t.env.prims = s.env.prims ++ recordsPrims s.cfg.memDev s.memAw f 0 (rs ++ tail) ∧
      (∀ r, (rs ++ tail).getLast? = some r → ∀ k : Byte, k < 10 → t.dbufGet k = recByte r k.toNat)

/-- R204, R278 (derived): a read failure at any record of a CNTVALID gives the count 0, not a partial one; `FAIL` stays 0
and `ERR` keeps the code. Any failure: answers to which a MEMREAD of that record fails. One of them in full: an unexpected
status at the selection. -/
def Obligations.CountFailureIsZero : Prop :=
  ∀ (s : State) (f : Starts) (rs : List (List Byte)), Ready s → f.Ok →
    (∀ r ∈ rs, r.length = 10 ∧ recByte r 0 ≠ 0) → rs.length < s.capacity.toNat →
    (∀ (ins : List Instant) (u : State), Fails .memread s (recOffset (BitVec.ofNat 16 rs.length)) 10 ins u →
      s.env.inputs = recordsTrace s.memAw f rs ++ ins →
      ∃ t, exec .cntvalid s = .next t ∧ t.busy = false ∧ t.fail = false ∧ t.err = u.err ∧ 1 ≤ t.err ∧ t.err ≤ 4 ∧
        t.res = 0 ∧ t.bte.count = 0 ∧ t.bte.bstat = u.bte.bstat ∧ t.bte.iter = u.bte.iter ∧
        t.env.inputs = u.env.inputs) ∧
    (∀ (st sx : Byte) (rest : List Instant), isStart st = true → sx ∉ PState.named 0 .slaw →
      s.env.inputs = recordsTrace s.memAw f rs ++ brokenRead st sx ++ rest →
      ∃ t, exec .cntvalid s = .next t ∧ t.busy = false ∧ t.fail = false ∧ t.err = 3 ∧ t.res = 0 ∧ t.bte.count = 0 ∧
        t.bte.bstat = sx ∧ t.env.inputs = rest)

/-! ### The scheduler -/

/-- R224 (derived): a pass in the minute of the last one reads the time and does nothing more. Both commands. -/
def Obligations.SameMinutePass : Prop :=
  ∀ (s : State) (st st2 : Byte) (bs : List Byte) (rest : List Instant), Ready s →
    isStart st = true → isStart st2 = true → bs.length = 7 →
    (specTime bs).bad = false → (specTime bs).minuteOfDay = s.cursor.lastMin →
    s.env.inputs = readTrace st st2 1 bs ++ rest →
    ∀ (i : Instr) (mode : Mode), (i = .chkdueN ∧ mode = .normal) ∨ (i = .chkdueI ∧ mode = .init) →
      exec i s = .next
        { s.ended (encodeByte i) (s.bte.done .rd s.cfg.clockDev 1 0 7 0) (readPrims st st2 s.cfg.clockDev 1 0 bs) rest with
          dbuf := Memory.writeBytes 0 bs s.dbuf
          dt := specTime bs
          tickp := false
          seq := { s.seq with mode := mode, cur := (specTime bs).minuteOfDay } }

/-- R227, R230 to R238, R246 (derived): a pass over a store whose reads all succeed does what the pseudocode does, run as
a plain function (`specPass`): the same records fetched, the same transmissions in the same order, the same cursor. Both
commands, and the tick run of R245. -/
def Obligations.PassFollowsPseudocode : Prop :=
  ∀ (s : State) (mode : Mode) (st st2 : Byte) (f : Starts) (bs : List Byte) (store : Half → List Byte) (fuel : Nat)
    (es : List ScanEvent) (n : Half) (rest : List Instant), Ready s → isStart st = true → isStart st2 = true → f.Ok →
    bs.length = 7 →
    (∀ j, (store j).length = 10) → (specTime bs).bad = false → s.cursor.nextIdx < s.capacity →
    specPass s.capacity store (specTime bs) mode s.cursor.lastMin.toNat (specTime bs).minuteOfDay.toNat fuel
      s.cursor.nextIdx = some (es, n) →
    (s.env.inputs = readTrace st st2 1 bs ++ eventsTrace s.memAw store f es ++ rest →
      ∀ i : Instr, (i = .chkdueN ∧ mode = .normal) ∨ (i = .chkdueI ∧ mode = .init) →
        ∃ t, exec i s = .next t ∧ PassDone s t st st2 f bs store es n rest ∧ t.cmd = encodeByte i ∧ t.src = false) ∧
    (s.env.inputs = Instant.quiet :: readTrace st st2 1 bs ++ eventsTrace s.memAw store f es ++ rest → mode = .normal →
      s.tickEn = true → s.tickp = true →
      ∃ t, step s = .next t ∧ PassDone s t st st2 f bs store es n rest ∧ t.cmd = s.cmd ∧ t.src = true)

/-- R242 (derived): Init suppresses the transmissions and nothing else: both modes end in the same cursor, with the same
`ERR`, `FAIL` and primitives. -/
def Obligations.InitOnlySilences : Prop :=
  ∀ (s : State) (st st2 : Byte) (f : Starts) (bs : List Byte) (store : Half → List Byte) (fuel : Nat)
    (es : List ScanEvent) (n : Half) (rest : List Instant), Ready s → isStart st = true → isStart st2 = true → f.Ok →
    bs.length = 7 → (∀ j, (store j).length = 10) →
    (specTime bs).bad = false → s.cursor.nextIdx < s.capacity →
    specPass s.capacity store (specTime bs) .normal s.cursor.lastMin.toNat (specTime bs).minuteOfDay.toNat fuel
      s.cursor.nextIdx = some (es, n) →
    ∃ t u,
      exec .chkdueN (s.withInputs (readTrace st st2 1 bs ++ eventsTrace s.memAw store f es ++ rest)) = .next t ∧
      exec .chkdueI (s.withInputs (readTrace st st2 1 bs ++ eventsTrace s.memAw store f (fetches es) ++ rest)) = .next u ∧
      u.cursor = t.cursor ∧ u.err = t.err ∧ u.fail = t.fail ∧ u.env.prims = t.env.prims ∧ u.env.inputs = rest ∧
      u.env.txs = s.env.txs ∧ u.tx = s.tx

/-- R233 to R235, R47, R114 (derived): a valid record in the window whose weekday and date tests pass is handed to the
transmit port, its bytes unchanged, with `TX_REQ` 1; the acknowledgement ends the handshake and completes one `Transmit`.
That the transmit history stays as it is when the port is driven and grows when `TX_ACK` is seen is the model's choice (log
entry 6). -/
def Obligations.TransmitHandshake : Prop :=
  (∀ (s : State) (more : Bool) (rest : List Instant), s.busy = true → s.seq.task = .dueScan more →
    s.bte.pstate = .stopOk → s.bte.xlen = 10 → s.dbufGet 0 ≠ 0 →
    s.seq.wfrom.toNat ≤ (s.dbufGet 7).toNat * 60 + (s.dbufGet 8).toNat →
    (s.dbufGet 7).toNat * 60 + (s.dbufGet 8).toNat < s.seq.wto.toNat →
    s.dbufGet 6 = 0 ∨ s.dbufGet 6 = s.dt.wday →
    (s.dbufGet 3 = 0 ∧ s.dbufGet 4 = 0 ∧ s.dbufGet 5 = 0) ∨
      (s.dbufGet 3 = s.dt.day ∧ s.dbufGet 4 = s.dt.mon ∧ s.dbufGet 5 = s.dt.year) →
    s.seq.mode = .normal → s.env.inputs = Instant.quiet :: rest →
    ∃ t, step s = .next t ∧ t.busy = true ∧ t.seq.task = .dueTx more ∧ t.request = none ∧ t.env.txs = s.env.txs ∧
      t.tx = { major := s.dbufGet 1, minor := s.dbufGet 2, cmd := (s.dbufGet 9).getLsbD 0, req := true } ∧
      t.cursor = s.cursor ∧ t.env.inputs = rest) ∧
  (∀ (s : State) (more : Bool) (rest : List Instant), s.busy = true → s.seq.task = .dueTx more →
    s.env.inputs = .ack :: rest →
    ∃ t, step s = .next t ∧ t.tx = { s.tx with req := false } ∧
      t.env.txs = s.env.txs ++ [{ major := s.tx.major, minor := s.tx.minor, cmd := s.tx.cmd }] ∧ t.env.inputs = rest)

/-- R222 (derived): a failed time read leaves the cursor and `DT_*` alone, reads no record and transmits nothing. Any
failure: answers to which a CLKREAD of the time record fails make the pass, whoever started it, end as that command does. One
of them in full: no start condition at the first START. The pass is over, so `TICKP` is cleared, but a TICK edge of that step
wins (R246). -/
def Obligations.TimeReadFailure : Prop :=
  ∀ (s : State) (d : DueBy), Ready s → d.May s →
    (∀ u : State, Fails .clkread s 0 7 s.env.inputs u →
      ∃ t, d.run s = .next t ∧ t.busy = false ∧ t.fail = true ∧ 1 ≤ t.err ∧ t.err ≤ 4 ∧ t.cursor = s.cursor ∧
        t.dt = s.dt ∧ t.env.txs = s.env.txs ∧ (NoTick s → t.tickp = false) ∧
        t = { u with
              cmd := d.cmd s, src := d.src, ops := s.ops, tickp := t.tickp
              seq := { s.seq with mode := d.mode }
              env := { u.env with reads := t.env.reads } }) ∧
    (∀ (st b : Byte) (tick : Bool) (rest : List Instant), st ∉ PState.named 0 .start →
      s.env.inputs = { bus := some (st, b), tick := tick } :: rest →
      d.run s = .next
        { s.failed (d.cmd s) 1 (s.bte.refused ⟨.rd, s.cfg.clockDev, 1, 0, 7⟩ st) [.sent .start st] rest with
          src := d.src
          tickp := tick
          seq := { s.seq with mode := d.mode } })

/-- R223 (derived): hours above 23 or minutes above 59 end the pass, whoever started it, with `E_BADTIME`, the decoded time
in `DT_*`, the cursor unchanged, no record read. -/
def Obligations.BadTime : Prop :=
  ∀ (s : State) (d : DueBy) (st st2 : Byte) (bs : List Byte) (rest : List Instant), Ready s → d.May s →
    isStart st = true → isStart st2 = true → bs.length = 7 →
    23 < (bcd (recByte bs 2)).toNat ∨ 59 < (bcd (recByte bs 1)).toNat →
    s.env.inputs = readTrace st st2 1 bs ++ rest →
    d.run s = .next
      { s.failed (d.cmd s) 7 (s.bte.done .rd s.cfg.clockDev 1 0 7 0) (readPrims st st2 s.cfg.clockDev 1 0 bs) rest with
        src := d.src
        dbuf := Memory.writeBytes 0 bs s.dbuf
        dt := specTime bs
        tickp := false
        seq := { s.seq with mode := d.mode } }

/-- R231, R240, R225, C13 (derived): a read of the record under the cursor that fails ends its window's scan only: `NEXTIDX`
unchanged, `LASTMIN` moved, `FAIL` 0, the code in `ERR`, nothing transmitted; after midnight the second window's scan runs
all the same. Any failure: answers to which a MEMREAD of that record fails. One of them in full: an unexpected status at the
selection. With `CAPACITY = 0` there is no bus activity and the code is `E_RANGE`. -/
def Obligations.ScanReadFailure : Prop :=
  ∀ (s : State) (d : DueBy) (st st2 : Byte) (bs : List Byte), Ready s → d.May s → isStart st = true →
    isStart st2 = true → bs.length = 7 → (specTime bs).bad = false → (specTime bs).minuteOfDay ≠ s.cursor.lastMin →
    (∀ (ins : List Instant) (u v : State), s.cursor.nextIdx < s.capacity →
      Fails .memread s (recOffset s.cursor.nextIdx) 10 ins u →
      (if s.cursor.lastMin < (specTime bs).minuteOfDay then v = u
        else Fails .memread s (recOffset s.cursor.nextIdx) 10 u.env.inputs v) →
      s.env.inputs = readTrace st st2 1 bs ++ ins →
      ∃ t, d.run s = .next t ∧ t.busy = false ∧ t.fail = false ∧ t.err = v.err ∧ 1 ≤ t.err ∧ t.err ≤ 4 ∧
        t.bte.count = 0 ∧ t.bte.bstat = v.bte.bstat ∧ (NoTick s → t.tickp = false) ∧ t.dt = specTime bs ∧
        t.cursor = { lastMin := (specTime bs).minuteOfDay, nextIdx := s.cursor.nextIdx } ∧
        t.env.txs = s.env.txs ∧ t.env.inputs = v.env.inputs) ∧
    (∀ (sx : Byte) (rest : List Instant), s.cursor.nextIdx < s.capacity → sx ∉ PState.named 0 .slaw →
      s.env.inputs = readTrace st st2 1 bs ++
        (if s.cursor.lastMin < (specTime bs).minuteOfDay then brokenRead st sx
          else brokenRead st sx ++ brokenRead st2 sx) ++ rest →
      ∃ t, d.run s = .next t ∧ t.busy = false ∧ t.fail = false ∧ t.err = 3 ∧ t.bte.count = 0 ∧ t.bte.bstat = sx ∧
        t.tickp = false ∧ t.cursor = { lastMin := (specTime bs).minuteOfDay, nextIdx := s.cursor.nextIdx } ∧
        t.env.txs = s.env.txs ∧ t.env.inputs = rest) ∧
    (∀ rest : List Instant, s.capacity = 0 → s.env.inputs = readTrace st st2 1 bs ++ rest →
      ∃ t, d.run s = .next t ∧ t.busy = false ∧ t.fail = false ∧ t.err = 6 ∧ t.tickp = false ∧
        t.cursor = { lastMin := (specTime bs).minuteOfDay, nextIdx := s.cursor.nextIdx } ∧
        t.env.txs = s.env.txs ∧ t.env.prims = s.env.prims ++ readPrims st st2 s.cfg.clockDev 1 0 bs ∧
        t.env.inputs = rest)

/-- R239 (derived, of the pseudocode that `PassFollowsPseudocode` ties to the machine): a scan that starts at or below the
lowest invalid slot `v` ends after at most `CAPACITY + 1` record reads, with the cursor inside the store. -/
def Obligations.ScanTerminates : Prop :=
  ∀ (cap v : Half) (store : Half → List Byte) (dt : DateTime) (mode : Mode) (wfrom wto : Nat) (next : Half),
    next < cap → v ≤ cap → next ≤ v → (∀ j, j < v → recByte (store j) 0 ≠ 0) →
    (v = cap ∨ recByte (store v) 0 = 0) →
    ∃ es n, specScan cap store dt mode wfrom wto next (cap.toNat + 1) next = some (es, n) ∧ n < cap

/-- R310 (derived): the scan that does not end. Slots 0, 1 and 3 valid at 10:00, slot 2 invalid, the cursor at 3, the
clock at 10:01: for every number there is a run in which the block is still busy after that many transmissions. -/
def Obligations.ScanMayLoop : Prop :=
  ∀ (s : State) (n : Nat), Ready s → s.capacity = 4 → s.cursor = { lastMin := 600, nextIdx := 3 } →
    ∃ (ins : List Instant) (t : State), (∀ i ∈ ins, i.reset = false ∧ i.host = none ∧ i.tick = false) ∧
      exec .chkdueN (s.withInputs ins) = .next t ∧ t.busy = true ∧ n ≤ t.env.txs.length - s.env.txs.length ∧
      ∃ laps, ins = readTrace stStart stRepStart 1 [0, 0x01, 0x10, 0, 0, 0, 0] ++
        readTrace stStart stRepStart s.memAw (tenOClock 0x44) ++ [.ack] ++
        (List.replicate laps
          (readTrace stStart stRepStart s.memAw (tenOClock 0x41) ++ [.ack] ++
            readTrace stStart stRepStart s.memAw (tenOClock 0x42) ++ [.ack] ++
            readTrace stStart stRepStart s.memAw [0, 0, 0, 0, 0, 0, 0, 0, 0, 0])).flatten

/-- R245, R267 (derived): an idle block with ticks enabled and a tick pending starts a tick run in an instant without host
access: `SRC` 1, `ERR` 0, `CMD` unchanged, the time read begun; the run then takes the rest of the trace. That an edge which
arrives in the instant starts the run in that same instant is the model's choice (log entry 11): the two rules do not fix the
instant. -/
def Obligations.TickRunStarts : Prop :=
  ∀ (s : State) (i : Instant) (rest : List Instant), s.busy = false → s.halt = false → s.tickEn = true →
    s.tickp = true ∨ i.tick = true → i.reset = false → i.host = none → s.env.inputs = i :: rest →
    step s = .next (run rest s.tickBegun) ∧ run [] s.tickBegun = s.tickBegun.withInputs [] ∧
      s.tickBegun.request = some .start

/-- R245, R247, R267 (derived): a `CMD` write and the start condition of a tick run at the same instant: the command, any
byte but those of CHKDUE, is accepted, the tick stays pending over its whole run, and the tick run starts when it has
completed. -/
def Obligations.CommandBeforeTick : Prop :=
  ∀ (s : State) (c : Byte) (rest : List Instant), Ready s → s.tickEn = true → s.tickp = true → c ≠ 0x40 → c ≠ 0x41 →
    (∀ i ∈ rest, i.reset = false) → s.env.inputs = { host := some (.write addrCmd c) } :: rest →
    ∃ t, step s = .next t ∧ t.cmd = c ∧ t.src = false ∧ t.tickp = true ∧
      (c = 0x00 → t.busy = false ∧ t.env.inputs = rest) ∧
      (t.busy = false → t.tickEn = true → t.halt = false → t.env.upcoming = [] →
        ∃ u, step t = .next u ∧ u.busy = true ∧ u.src = true ∧ u.cmd = c ∧ u.request = some .start)

/-! ### Failures and frames over every trace -/

/-- R272, R205 (derived): which command can end with which code in `ERR`, over every trace: `E_INCOMPLETE` with none. -/
def Obligations.ErrorCodes : Prop :=
  (∀ (s t : State) (c : Byte), Ready s → execIllegal c s = .next t → t.err = 8) ∧
  (∀ (s t : State) (i : Instr), Ready s → NoReset s → s.cursor.nextIdx < s.capacity ∨ s.capacity = 0 →
    exec i s = .next t →
    match i with
    | .nop => t.err = 0
    | .bread | .bwrite | .clkread | .clkwrite | .memread | .memwrite | .gettime | .loadcfg | .cntvalid => t.err ≤ 4
    | .rdrec | .wrrec => t.err ≤ 4 ∨ t.err = 6
    | .chkdueN | .chkdueI => t.err ≤ 4 ∨ t.err = 7 ∨ (t.err = 6 ∧ s.capacity = 0)) ∧
  (∀ (s t : State) (d : DueBy), Ready s → NoReset s → s.cursor.nextIdx < s.capacity ∨ s.capacity = 0 → d.May s →
    d.run s = .next t → t.err ≤ 4 ∨ t.err = 7 ∨ (t.err = 6 ∧ s.capacity = 0))

/-- R277, R278, R222, R226, R293 (derived): `FAIL` after each command and tick run that completed, and what it says of the
results. The last two clauses, that `FAIL` keeps its old value while a command or a tick run is under way, are the model's
choice (log entry 9, DEDUCED, unsafe): R262 says so, but a cell of R32's table clears `FAIL` at acceptance of a command. -/
def Obligations.FailFlag : Prop :=
  (∀ (s t : State) (i : Instr), Ready s → NoReset s → exec i s = .next t → t.busy = false →
    match i with
    | .nop => t.fail = false
    | .bread | .bwrite | .clkread | .clkwrite | .memread | .memwrite | .rdrec | .wrrec => (t.fail = true ↔ t.err ≠ 0)
    | .gettime => (t.fail = true ↔ t.err ≠ 0) ∧ (t.fail = true → t.dt = s.dt)
    | .loadcfg =>
      (t.fail = true ↔ t.err ≠ 0) ∧ t.cfgok = !t.fail ∧
        (t.fail = true → t.capacity = 0 ∧ t.hw = s.hw) ∧ t.cursor = { lastMin := 0, nextIdx := 0 }
    | .cntvalid => t.fail = false ∧ (t.err ≠ 0 → t.res = 0)
    | .chkdueN | .chkdueI => t.fail = true → t.err ≠ 0) ∧
  (∀ (s t : State) (d : DueBy), Ready s → NoReset s → d.May s → d.run s = .next t → t.busy = false →
    (t.fail = true → t.cursor = s.cursor ∧ t.err ≠ 0 ∧ t.err ≠ 6 ∧ t.env.txs = s.env.txs ∧ (t.err ≠ 7 → t.dt = s.dt)) ∧
      (t.fail = false → t.dt.bad = false ∧ t.cursor.lastMin = t.dt.minuteOfDay)) ∧
  (∀ (s t : State) (i : Instr), Ready s → NoReset s → exec i s = .next t → t.busy = true → t.fail = s.fail) ∧
  (∀ (s t : State) (d : DueBy), Ready s → NoReset s → d.May s → d.run s = .next t → t.busy = true → t.fail = s.fail)

/-- R269, R104 (derived): the frame of the transfer commands, over every trace: what they never write, and `DBUF` from
`LEN` on (all of it, for the writes). -/
def Obligations.TransferFrame : Prop :=
  ∀ (s t : State) (i : Instr) (x : Xfer), Ready s → NoReset s → s.xfer? i = some x → exec i s = .next t →
    t.cfg = s.cfg ∧ t.cmd = encodeByte i ∧ t.src = false ∧ t.ops = s.ops ∧ t.res = s.res ∧ t.capacity = s.capacity ∧
      t.cursor = s.cursor ∧ t.dt = s.dt ∧ t.hw = s.hw ∧ t.cfgok = s.cfgok ∧ t.tx = s.tx ∧
      t.seq = { s.seq with task := t.seq.task } ∧ t.env.txs = s.env.txs ∧ t.env.resets = s.env.resets ∧
      (x.kind = .wr → t.dbuf = s.dbuf) ∧ ∀ k : Byte, s.ops.len ≤ k → t.dbufGet k = s.dbufGet k

/-- R269, R186, R187 (derived): the frames of GETTIME and LOADCFG, over every trace. -/
def Obligations.ProfileFrame : Prop :=
  ∀ (s t : State) (i : Instr), Ready s → NoReset s → i = .gettime ∨ i = .loadcfg → exec i s = .next t →
    t.cfg = s.cfg ∧ t.cmd = encodeByte i ∧ t.src = false ∧ t.ops = s.ops ∧ t.res = s.res ∧ t.tx = s.tx ∧
      t.seq = { s.seq with task := t.seq.task } ∧ t.env.txs = s.env.txs ∧ t.env.resets = s.env.resets ∧
      (i = .gettime → t.capacity = s.capacity ∧ t.cursor = s.cursor ∧ t.hw = s.hw ∧ t.cfgok = s.cfgok ∧
        ∀ k : Byte, 7 ≤ k → t.dbufGet k = s.dbufGet k) ∧
      (i = .loadcfg → t.dt = s.dt ∧ ∀ k : Byte, 8 ≤ k → t.dbufGet k = s.dbufGet k)

/-- R269, R202 to R204 (derived): the frames of the record commands, over every trace: `IDX` and the cursor are unchanged,
only CNTVALID writes `RES`, WRREC does not write `DBUF`, the others only `DBUF[0..9]`. -/
def Obligations.RecordFrame : Prop :=
  ∀ (s t : State) (i : Instr), Ready s → NoReset s → i = .rdrec ∨ i = .wrrec ∨ i = .cntvalid → exec i s = .next t →
    t.cfg = s.cfg ∧ t.cmd = encodeByte i ∧ t.src = false ∧ t.ops = s.ops ∧ t.capacity = s.capacity ∧
      t.cursor = s.cursor ∧ t.dt = s.dt ∧ t.hw = s.hw ∧ t.cfgok = s.cfgok ∧ t.tx = s.tx ∧
      t.seq = { s.seq with task := t.seq.task, cidx := t.seq.cidx } ∧ t.env.txs = s.env.txs ∧
      t.env.resets = s.env.resets ∧ (i ≠ .cntvalid → t.res = s.res ∧ t.seq.cidx = s.seq.cidx) ∧
      (i = .wrrec → t.dbuf = s.dbuf) ∧ ∀ k : Byte, 10 ≤ k → t.dbufGet k = s.dbufGet k

/-- R269, R221 (derived): the frame of CHKDUE and of the tick run, over every trace; CHKDUE.I never drives the transmit
port, the others only add to the transmit history. -/
def Obligations.CheckDueFrame : Prop :=
  ∀ (s t : State) (d : DueBy), Ready s → NoReset s → d.May s → d.run s = .next t →
    t.cfg = s.cfg ∧ t.cmd = d.cmd s ∧ t.src = d.src ∧ t.ops = s.ops ∧ t.res = s.res ∧ t.capacity = s.capacity ∧
      t.hw = s.hw ∧ t.cfgok = s.cfgok ∧ t.seq.cidx = s.seq.cidx ∧ t.seq.mode = d.mode ∧ t.env.resets = s.env.resets ∧
      (∃ new, t.env.txs = s.env.txs ++ new) ∧ (d = .init → t.tx = s.tx ∧ t.env.txs = s.env.txs) ∧
      ∀ k : Byte, 10 ≤ k → t.dbufGet k = s.dbufGet k

/-- R34, R48, R53, R246 (derived): `TICK_EN`, `HALT` and `OVR` change by host accesses only; `TICKP` is set by a TICK edge,
at any time outside reset and whatever `BUSY`, `TICK_EN` and `HALT` are, set by edges only, and cleared by a completed
CheckDue only. Over every command, and over every step. -/
def Obligations.FlagFrame : Prop :=
  (∀ (s t : State) (i : Instr), Ready s → NoReset s → exec i s = .next t →
    (NoHost s → t.tickEn = s.tickEn ∧ t.halt = s.halt ∧ t.ovr = s.ovr ∧ t.env.reads = s.env.reads ∧
      t.env.draws = s.env.draws) ∧
    (i ≠ .chkdueN → i ≠ .chkdueI → (s.tickp = true → t.tickp = true) ∧ (NoTick s → t.tickp = s.tickp)) ∧
    (i = .chkdueN ∨ i = .chkdueI → NoTick s → t.tickp = if t.busy then s.tickp else false)) ∧
  (∀ s t : State, NoReset s.ahead → step s = .next t →
    (NoHost s.ahead → t.tickEn = s.tickEn ∧ t.halt = s.halt ∧ t.ovr = s.ovr ∧ t.env.reads = s.env.reads ∧
      t.env.draws = s.env.draws) ∧
    (NoTick s.ahead → s.tickp = false → t.tickp = false) ∧
    (s.busy = true → s.tickp = true → t.busy = true ∨ (s.seq.task ≠ .dueTime ∧ s.seq.task.scanning = false) →
      t.tickp = true)) ∧
  (∀ (s t : State) (i : Instant) (rest : List Instant), s.env.inputs = i :: rest → i.reset = false → i.tick = true →
    s.busy = true ∨ s.halt = true ∨ rest = [] → step s = .next t → t.tickp = true)

/-- R189 (derived): outside reset only LOADCFG changes `CAPACITY`, `CFGOK` and `HW_*`, over every step. -/
def Obligations.CapacityOnlyByLoadCfg : Prop :=
  ∀ s t : State, NoReset s.ahead → s.seq.task ≠ .loadCfg →
    (∀ c s', fetchCommand s = some (c, s') → c ≠ 0x25) → step s = .next t →
    t.capacity = s.capacity ∧ t.cfgok = s.cfgok ∧ t.hw = s.hw

/-! ### The host port, ticks, halt, waiting -/

/-- R22, R23 (derived): a read of an idle block returns the register and changes nothing; and the register map: which
register stands at which address, 16-bit ones little-endian (`STATUS` and `CTRL` bit by bit: `StatusBits`). -/
def Obligations.IdleRead : Prop :=
  (∀ (s : State) (a : HostAddr) (rest : List Instant), s.busy = false → s.tickReady = false →
    s.env.inputs = { host := some (.read a) } :: rest →
    step s = .next { s with env := { s.env with inputs := rest, reads := s.env.reads ++ [(a, s.readReg a)] } }) ∧
  (∀ s : State,
    s.readReg 0x000 = s.cmd ∧ s.readReg 0x003 = s.err ∧ s.readReg 0x004 = s.ops.dev ∧ s.readHalf 0x005 = s.ops.off ∧
    s.readReg 0x007 = s.ops.len ∧ s.readReg 0x008 = s.bte.count ∧ s.readHalf 0x009 = s.ops.idx ∧
    s.readHalf 0x00B = s.res ∧ s.readHalf 0x00D = s.capacity ∧ s.readReg 0x00F = s.bte.iter ∧
    s.readHalf 0x010 = s.cursor.lastMin.setWidth 16 ∧ s.readHalf 0x012 = s.cursor.nextIdx ∧
    s.readReg 0x014 = s.dt.sec ∧ s.readReg 0x015 = s.dt.min ∧ s.readReg 0x016 = s.dt.hour ∧
    s.readReg 0x017 = s.dt.wday ∧ s.readReg 0x018 = s.dt.day ∧ s.readReg 0x019 = s.dt.mon ∧
    s.readReg 0x01A = s.dt.year ∧ s.readReg 0x01B = s.hw.ver ∧ s.readReg 0x01C = s.hw.mtype ∧
    s.readHalf 0x01F ++ s.readHalf 0x01D = s.hw.memSize ∧ s.readReg 0x021 = s.hw.magic0 ∧
    s.readReg 0x022 = s.hw.magic1 ∧ s.readReg 0x023 = s.bte.bstat ∧
    ∀ k : Byte, s.readReg (0x100 + k.setWidth 9) = s.dbufGet k)

/-- R22 (derived): host reads have no effect on anything: a machine whose trace has them erased takes the same steps. -/
def Obligations.HostReadsHaveNoEffect : Prop :=
  ∀ s t u : State, step s = .next t → step s.forgetReads = .next u → u.forgetReads = t.forgetReads

/-- R52: reserved addresses and bits read 0; a write to a reserved address or a read-only register is ignored and does
not set `OVR`. -/
def Obligations.ReservedAddresses : Prop :=
  (∀ (s : State) (a : HostAddr), 0x024 ≤ a → a ≤ 0x0FF → s.readReg a = 0) ∧
  (∀ s : State, (s.readReg 0x001).getLsbD 7 = false ∧ (∀ k, 2 ≤ k → (s.readReg 0x002).getLsbD k = false) ∧
    (∀ k, 3 ≤ k → (s.readReg 0x011).getLsbD k = false)) ∧
  (∀ (s : State) (a : HostAddr) (v : Byte) (rest : List Instant), s.busy = false → s.tickReady = false →
    a = 0x001 ∨ a = 0x003 ∨ a = 0x008 ∨ (0x00B ≤ a ∧ a ≤ 0x0FF) →
    s.env.inputs = { host := some (.write a v) } :: rest → step s = .next (s.withInputs rest))

/-- R23 to R26, R28, R30, R34, R264 to R266, R245 (derived): host writes to an idle block. A writable register is read back
and no other register changes. `CTRL`: bit 0 is stored, bit 1 only sets `HALT`, bit 2 clears `OVR`, bits 7:3 are ignored and
nothing else changes, unless ticks are now enabled, the block is not halted and a tick is pending: then the tick run starts
at once. -/
def Obligations.WriteReadBack : Prop :=
  (∀ (s : State) (a b : HostAddr) (v : Byte) (rest : List Instant), s.busy = false → s.tickReady = false →
    (0x004 ≤ a ∧ a ≤ 0x007) ∨ a = 0x009 ∨ a = 0x00A ∨ 0x100 ≤ a →
    s.env.inputs = { host := some (.write a v) } :: rest →
    ∃ t, step s = .next t ∧ t.readReg b = (if b = a then v else s.readReg b) ∧ t.env.inputs = rest ∧
      t.env.prims = s.env.prims ∧ t.busy = false) ∧
  (∀ (s s' : State) (v : Byte) (rest : List Instant), s.busy = false →
    s' = { s with tickEn := v.getLsbD 0, halt := s.halt || v.getLsbD 1, ovr := s.ovr && !v.getLsbD 2 } →
    s.env.inputs = { host := some (.write 0x002 v) } :: rest →
    (s'.tickEn = false ∨ s'.halt = true ∨ s.tickp = false → step s = .next (s'.withInputs rest)) ∧
    (s'.tickEn = true → s'.halt = false → s.tickp = true →
      step s = .next (run rest s'.tickBegun) ∧ run [] s'.tickBegun = s'.tickBegun.withInputs []))

/-- R32, R34: the bits of `STATUS` and of `CTRL`, as read. -/
def Obligations.StatusBits : Prop :=
  ∀ s : State, (s.readReg 0x001).getLsbD 0 = s.busy ∧ (s.readReg 0x001).getLsbD 1 = s.fail ∧
    (s.readReg 0x001).getLsbD 2 = s.tickp ∧ (s.readReg 0x001).getLsbD 3 = s.ovr ∧
    (s.readReg 0x001).getLsbD 4 = s.cfgok ∧ (s.readReg 0x001).getLsbD 5 = (s.halt && !s.busy) ∧
    (s.readReg 0x001).getLsbD 6 = s.src ∧ (s.readReg 0x001).getLsbD 7 = false ∧
    (s.readReg 0x002).getLsbD 0 = s.tickEn ∧ (s.readReg 0x002).getLsbD 1 = s.halt ∧
    ∀ k, 2 ≤ k → (s.readReg 0x002).getLsbD k = false

/-- R53, R284 (derived): host accesses to a busy block, in an instant in which the bus does not answer. A read of anything
but `STATUS` and `CTRL` returns a free value, not the register. -/
def Obligations.BusyHostAccess : Prop :=
  ∀ (s : State) (a : HostAddr) (v : Byte) (rest : List Instant), Waiting s →
    (a ≠ 0x002 → s.env.inputs = { host := some (.write a v) } :: rest →
      step s = .next { s with ovr := true, env := { s.env with inputs := rest } }) ∧
    (s.env.inputs = { host := some (.write 0x002 v) } :: rest →
      step s = .next
        { s with tickEn := v.getLsbD 0, halt := s.halt || v.getLsbD 1, ovr := s.ovr && !v.getLsbD 2,
                 env := { s.env with inputs := rest } }) ∧
    (a = 0x001 ∨ a = 0x002 → s.env.inputs = { host := some (.read a) } :: rest →
      step s = .next { s with env := { s.env with inputs := rest, reads := s.env.reads ++ [(a, s.readReg a)] } }) ∧
    (a ≠ 0x001 → a ≠ 0x002 → s.env.inputs = { host := some (.read a) } :: rest →
      step s = .next
        { s with env := { s.env with inputs := rest, draws := s.env.draws + 1,
                                     reads := s.env.reads ++ [(a, Config.hostReadDraw s.env.draws)] } })

/-- R73, R47, R312, R145, R157, R313 (derived): the runs that never end. While the environment does not complete the
outstanding primitive, or does not acknowledge the transmission, any number of quiet instants changes nothing but the trace;
if nothing ever comes, no number of steps changes anything. If it answers `ST_ARB_LOST` without end, then after any number
of steps the transaction has only restarted, and `BUSY` is still 1. That such an environment is a trace that comes again and
again is the model's form (log entry 3). -/
def Obligations.WaitsForEver : Prop :=
  (∀ (s : State) (n : Nat) (rest : List Instant), Waiting s →
    run (List.replicate n Instant.quiet ++ rest) s = run rest s ∧
    step (s.withInputs (Instant.quiet :: rest)) = .next (s.withInputs rest) ∧
    (s.env.inputs = [] → s.env.cycle = [] → steps n s = .next s)) ∧
  (∀ (s : State) (p : Prim) (d : Byte) (n : Nat), Outstanding s p → s.env.inputs = [] →
    s.env.cycle = [.answer stArbLost d] →
    ∃ t, steps (n + 1) s = .next t ∧ t.busy = true ∧
      t = { s with
        bte := { s.bte with pstate := .start, bidx := 0, bstat := stArbLost }
        env := { s.env with prims :=
          s.env.prims ++ ⟨p, some stArbLost, p.returns d⟩ :: List.replicate n PrimEvent.lostStart } })

/-- R265 (derived): a halted block stays halted until reset; an idle one then accepts no command and starts no tick run:
`CMD`, the results, the cursor and the histories stay as they are. -/
def Obligations.HaltIsFinal : Prop :=
  ∀ s t : State, NoReset s.ahead → s.halt = true → step s = .next t →
    t.halt = true ∧
    (s.busy = false → t.busy = false ∧ t.cmd = s.cmd ∧ t.fail = s.fail ∧ t.err = s.err ∧ t.cursor = s.cursor ∧
      t.bte = s.bte ∧ t.seq = s.seq ∧ t.tx = s.tx ∧ t.env.prims = s.env.prims ∧ t.env.txs = s.env.txs)

/-- R54, R300, R301 (derived): an instant of RESET, whatever the state, puts every register at 0, the engine idle; no
primitive is outstanding; no byte of `DBUF` has a value of its own; the host's write and TICK are ignored. Three clauses are
the model's choices: that the values hold in the instant with RESET asserted (log entry 13), that a transmission cut short
leaves no entry in the transmit history (log entry 6), and the draw that names a byte of `DBUF` (log entry 7). -/
def Obligations.ResetValues : Prop :=
  ∀ (s : State) (i : Instant) (rest : List Instant), i.reset = true → s.env.inputs = i :: rest →
    ∃ t, step s = .next t ∧ t.cmd = 0 ∧ t.readReg 0x001 = 0 ∧ t.readReg 0x002 = 0 ∧ t.err = 0 ∧ t.ops = ⟨0, 0, 0, 0⟩ ∧
      t.bte.count = 0 ∧ t.res = 0 ∧ t.capacity = 0 ∧ t.bte.iter = 0 ∧ t.cursor = ⟨0, 0⟩ ∧
      t.dt = ⟨0, 0, 0, 0, 0, 0, 0⟩ ∧ t.hw = ⟨0, 0, 0, 0, 0⟩ ∧ t.bte.bstat = 0 ∧ t.bte.pstate = .idle ∧
      t.bte.bidx = 0 ∧ t.bte.owned = false ∧ t.bte.xdev = 0 ∧ t.bte.xaw = 0 ∧ t.bte.xoff = 0 ∧ t.bte.xlen = 0 ∧
      t.seq.cur = 0 ∧ t.seq.wfrom = 0 ∧ t.seq.wto = 0 ∧ t.seq.sstart = 0 ∧ t.seq.cidx = 0 ∧ t.tickp = false ∧
      t.tx = ⟨0, 0, false, false⟩ ∧ t.request = none ∧ t.cfg = s.cfg ∧ t.env.inputs = rest ∧
      t.env.prims = s.env.prims ∧ t.env.txs = s.env.txs ∧
      ∀ b : Byte, t.dbufGet b = Config.dbufDraw t.env.resets b.toNat

/-! ### The invariant -/

/-- R55 (derived): the machine right after reset satisfies the invariant. -/
def Obligations.ResetInv : Prop := Inv State.reset

/-- R55 (derived): every step, from every state that satisfies the invariant, keeps it. -/
def Obligations.StepKeepsInv : Prop :=
  ∀ s t : State, Inv s → step s = .next t → Inv t

/-! ### Scripts -/

/-- R109, R103 (derived): the operand writes of a well-formed command line, on an idle block, make the command find the
operands of the line; what the line omits keeps its value (R108). -/
def Obligations.LineSetsOperands : Prop :=
  ∀ (l : Line) (s : State), l.wf = true →
    let t := s.writeAll (Line.operandWrites l)
    (∀ d w, l.dev = some (d, w) → t.opDev.toNat = d ∧ t.opAw.toNat = w) ∧
    (∀ o, l.off = some o → t.ops.off.toNat = o) ∧ (∀ n, l.len = some n → t.ops.len.toNat = n) ∧
    (∀ i, l.idx = some i → t.ops.idx.toNat = i) ∧
    (∀ (ds : List Nat), l.data = some ds →
      ∀ b : Byte, (t.dbufGet b).toNat = if h : b.toNat < ds.length then ds[b.toNat] else (s.dbufGet b).toNat) ∧
    (l.dev = none → t.ops.dev = s.ops.dev) ∧ (l.off = none → t.ops.off = s.ops.off) ∧
    (l.len = none → t.ops.len = s.ops.len) ∧ (l.idx = none → t.ops.idx = s.ops.idx) ∧
    (l.data = none → t.dbuf = s.dbuf)

end
end

