-- ==== Sys2Proof/Laws/Memory.lean ====
section
/-! SUPPORT. The laws of the buffer memory: read after write, the canonical form kept by every operation, and equal
memories equal data. -/

namespace Sys2Proof.Machine

@[simp] theorem Memory.read?_nil (a : Nat) : Memory.read? [] a = none := rfl

theorem Memory.read?_write (m : Memory) (a b : Nat) (v : Byte) :
    Memory.read? (Memory.write m a v) b = if b = a then some v else Memory.read? m b := by
  induction m with
  | nil => simp [Memory.write, Memory.read?]
  | cons c m ih =>
    obtain ⟨k, w⟩ := c
    simp only [Memory.write]
    split
    · simp [Memory.read?]
    · split
      · subst_vars; simp only [Memory.read?]; split <;> rfl
      · simp only [Memory.read?, ih]
        split
        · subst_vars; split
          · omega
          · rfl
        · rfl

@[simp] theorem Memory.read?_write_same (m : Memory) (a : Nat) (v : Byte) :
    Memory.read? (Memory.write m a v) a = some v := by simp [Memory.read?_write]

theorem Memory.read?_write_ne (m : Memory) {a b : Nat} (h : b ≠ a) (v : Byte) :
    Memory.read? (Memory.write m a v) b = Memory.read? m b := by simp [Memory.read?_write, h]

theorem Memory.wf_tail {c : Host.Cell} {m : Memory} (h : Memory.wf (c :: m) = true) : Memory.wf m = true := by
  cases m with
  | nil => rfl
  | cons d m => simp [Memory.wf] at h; exact h.2

/-- The first address of a memory, at least `a`. -/
theorem Memory.wf_cons {a : Nat} {v : Byte} {m : Memory} :
    Memory.wf ((a, v) :: m) = true ↔ (∀ c ∈ m.head?, a < c.1) ∧ Memory.wf m = true := by
  cases m with
  | nil => simp [Memory.wf]
  | cons d m => simp [Memory.wf]

theorem Memory.head?_write (m : Memory) (a : Nat) (v : Byte) :
    ∀ c ∈ (Memory.write m a v).head?, c.1 = a ∨ ∃ d ∈ m.head?, c.1 = d.1 := by
  cases m with
  | nil => simp [Memory.write]
  | cons d m =>
    obtain ⟨k, w⟩ := d
    simp only [Memory.write]
    split
    · simp
    · split <;> simp

/-- A write keeps the canonical form. -/
theorem Memory.wf_write {m : Memory} (h : Memory.wf m = true) (a : Nat) (v : Byte) :
    Memory.wf (Memory.write m a v) = true := by
  induction m with
  | nil => rfl
  | cons c m ih =>
    obtain ⟨k, w⟩ := c
    have hk := Memory.wf_cons.1 h
    simp only [Memory.write]
    split
    · next hlt => exact Memory.wf_cons.2 ⟨by simpa using hlt, h⟩
    · split
      · next he => subst he; exact Memory.wf_cons.2 hk
      · next hlt hne =>
        refine Memory.wf_cons.2 ⟨?_, ih hk.2⟩
        intro c hc
        rcases Memory.head?_write m a v c hc with rfl | ⟨d, hd, he⟩
        · omega
        · rw [he]; exact hk.1 d hd

/-- A write keeps the bound on the addresses. -/
theorem Memory.below_write {lim : Nat} {m : Memory} (h : Memory.below lim m = true) {a : Nat} (ha : a < lim) (v : Byte) :
    Memory.below lim (Memory.write m a v) = true := by
  induction m with
  | nil => simpa [Memory.write, Memory.below] using ha
  | cons c m ih =>
    obtain ⟨k, w⟩ := c
    simp only [Memory.below, List.all_cons, Bool.and_eq_true, decide_eq_true_eq] at h
    simp only [Memory.write]
    split
    · simpa [Memory.below, ha] using h
    · split
      · simpa [Memory.below, ha] using h.2
      · have := ih h.2
        simp only [Memory.below, List.all_cons, Bool.and_eq_true, decide_eq_true_eq] at this ⊢
        exact ⟨h.1, this⟩

/-- Consecutive writes keep the canonical form. -/
theorem Memory.wf_writeBytes {m : Memory} (h : Memory.wf m = true) (a : Nat) (bs : List Byte) :
    Memory.wf (Memory.writeBytes a bs m) = true := by
  induction bs generalizing a m with
  | nil => exact h
  | cons b bs ih => exact ih (Memory.wf_write h a b) (a + 1)

/-- What consecutive writes leave at an address. -/
theorem Memory.read?_writeBytes (bs : List Byte) (a b : Nat) (m : Memory) :
    Memory.read? (Memory.writeBytes a bs m) b =
      if a ≤ b then (bs[b - a]?).or (Memory.read? m b) else Memory.read? m b := by
  induction bs generalizing a m with
  | nil => simp [Memory.writeBytes]
  | cons v bs ih =>
    rw [Memory.writeBytes, ih]
    rcases Nat.lt_trichotomy b a with h | h | h
    · rw [if_neg (by omega), if_neg (by omega), Memory.read?_write_ne m (by omega) v]
    · subst h; simp
    · rw [if_pos (by omega), if_pos (by omega), Memory.read?_write_ne m (by omega) v]
      obtain ⟨k, rfl⟩ : ∃ k, b = a + 1 + k := ⟨b - (a + 1), by omega⟩
      rw [show a + 1 + k - (a + 1) = k by omega, show a + 1 + k - a = k + 1 by omega]
      simp

theorem Memory.wf_head_lt {a : Nat} {v : Byte} {m : Memory} (h : Memory.wf ((a, v) :: m) = true) :
    ∀ b, Memory.read? m b ≠ none → a < b := by
  induction m generalizing a v with
  | nil => intro b hb; exact absurd rfl hb
  | cons c m ih =>
    obtain ⟨k, w⟩ := c
    have hk := Memory.wf_cons.1 h
    intro b hb
    have hak : a < k := hk.1 (k, w) (by simp)
    simp only [Memory.read?] at hb
    split at hb
    · subst_vars; exact hak
    · exact Nat.lt_trans hak (ih hk.2 b hb)

/-- Canonical memories that read alike are the same list. -/
theorem Memory.ext {m m' : Memory} (h : Memory.wf m = true) (h' : Memory.wf m' = true)
    (he : ∀ a, Memory.read? m a = Memory.read? m' a) : m = m' := by
  induction m generalizing m' with
  | nil =>
    cases m' with
    | nil => rfl
    | cons c m' => have := he c.1; simp [Memory.read?] at this
  | cons c m ih =>
    obtain ⟨k, w⟩ := c
    cases m' with
    | nil => have := he k; simp [Memory.read?] at this
    | cons c' m' =>
      obtain ⟨k', w'⟩ := c'
      have hkk : k = k' := by
        rcases Nat.lt_trichotomy k k' with hlt | heq | hgt
        · have h1 := he k
          simp only [Memory.read?, if_pos, if_neg (show ¬ k = k' by omega)] at h1
          have := Memory.wf_head_lt h' k (by rw [← h1]; simp)
          omega
        · exact heq
        · have h1 := he k'
          simp only [Memory.read?, if_pos, if_neg (show ¬ k' = k by omega)] at h1
          have := Memory.wf_head_lt h k' (by rw [h1]; simp)
          omega
      subst hkk
      have hw : w = w' := by have := he k; simpa [Memory.read?] using this
      subst hw
      have : m = m' := by
        refine ih (Memory.wf_tail h) (Memory.wf_tail h') fun a => ?_
        by_cases hak : a = k
        · subst hak
          have h1 : Memory.read? m a = none := by
            by_contra hn; have := Memory.wf_head_lt h a hn; omega
          have h2 : Memory.read? m' a = none := by
            by_contra hn; have := Memory.wf_head_lt h' a hn; omega
          rw [h1, h2]
        · have := he a; simpa [Memory.read?, hak] using this
      rw [this]

/-! ### `DBUF` -/

/-- `DBUF[i]` after a write of `DBUF[j]`. -/
theorem dbufGet_dbufSet (s : State) (i j v : Byte) :
    (s.dbufSet j v).dbufGet i = if i = j then v else s.dbufGet i := by
  simp only [State.dbufGet, State.dbufSet, Memory.read?_write, ← BitVec.toNat_inj]
  split <;> rfl

end Sys2Proof.Machine
end

