-- ==== Sys2Proof/Laws/State.lean ====
section
/-! SUPPORT. For each named update of the state, each field after it. All true by definition. -/

namespace Sys2Proof.Machine

variable (s : State)

/-! ### withInputs -/

@[simp] theorem withInputs_cfg (ins : List Instant) : (s.withInputs ins).cfg = s.cfg := rfl
@[simp] theorem withInputs_cmd (ins : List Instant) : (s.withInputs ins).cmd = s.cmd := rfl
@[simp] theorem withInputs_busy (ins : List Instant) : (s.withInputs ins).busy = s.busy := rfl
@[simp] theorem withInputs_fail (ins : List Instant) : (s.withInputs ins).fail = s.fail := rfl
@[simp] theorem withInputs_tickp (ins : List Instant) : (s.withInputs ins).tickp = s.tickp := rfl
@[simp] theorem withInputs_ovr (ins : List Instant) : (s.withInputs ins).ovr = s.ovr := rfl
@[simp] theorem withInputs_cfgok (ins : List Instant) : (s.withInputs ins).cfgok = s.cfgok := rfl
@[simp] theorem withInputs_src (ins : List Instant) : (s.withInputs ins).src = s.src := rfl
@[simp] theorem withInputs_tickEn (ins : List Instant) : (s.withInputs ins).tickEn = s.tickEn := rfl
@[simp] theorem withInputs_halt (ins : List Instant) : (s.withInputs ins).halt = s.halt := rfl
@[simp] theorem withInputs_err (ins : List Instant) : (s.withInputs ins).err = s.err := rfl
@[simp] theorem withInputs_ops (ins : List Instant) : (s.withInputs ins).ops = s.ops := rfl
@[simp] theorem withInputs_res (ins : List Instant) : (s.withInputs ins).res = s.res := rfl
@[simp] theorem withInputs_capacity (ins : List Instant) : (s.withInputs ins).capacity = s.capacity := rfl
@[simp] theorem withInputs_cursor (ins : List Instant) : (s.withInputs ins).cursor = s.cursor := rfl
@[simp] theorem withInputs_dt (ins : List Instant) : (s.withInputs ins).dt = s.dt := rfl
@[simp] theorem withInputs_hw (ins : List Instant) : (s.withInputs ins).hw = s.hw := rfl
@[simp] theorem withInputs_dbuf (ins : List Instant) : (s.withInputs ins).dbuf = s.dbuf := rfl
@[simp] theorem withInputs_bte (ins : List Instant) : (s.withInputs ins).bte = s.bte := rfl
@[simp] theorem withInputs_seq (ins : List Instant) : (s.withInputs ins).seq = s.seq := rfl
@[simp] theorem withInputs_tx (ins : List Instant) : (s.withInputs ins).tx = s.tx := rfl
@[simp] theorem withInputs_env (ins : List Instant) : (s.withInputs ins).env = { s.env with inputs := ins } := rfl

@[simp] theorem withInputs_upcoming (i : Instant) (ins : List Instant) :
    (s.withInputs (i :: ins)).env.upcoming = i :: ins := rfl

/-! ### logPrim -/

@[simp] theorem logPrim_cfg (p : PrimEvent) : (s.logPrim p).cfg = s.cfg := rfl
@[simp] theorem logPrim_cmd (p : PrimEvent) : (s.logPrim p).cmd = s.cmd := rfl
@[simp] theorem logPrim_busy (p : PrimEvent) : (s.logPrim p).busy = s.busy := rfl
@[simp] theorem logPrim_fail (p : PrimEvent) : (s.logPrim p).fail = s.fail := rfl
@[simp] theorem logPrim_tickp (p : PrimEvent) : (s.logPrim p).tickp = s.tickp := rfl
@[simp] theorem logPrim_ovr (p : PrimEvent) : (s.logPrim p).ovr = s.ovr := rfl
@[simp] theorem logPrim_cfgok (p : PrimEvent) : (s.logPrim p).cfgok = s.cfgok := rfl
@[simp] theorem logPrim_src (p : PrimEvent) : (s.logPrim p).src = s.src := rfl
@[simp] theorem logPrim_tickEn (p : PrimEvent) : (s.logPrim p).tickEn = s.tickEn := rfl
@[simp] theorem logPrim_halt (p : PrimEvent) : (s.logPrim p).halt = s.halt := rfl
@[simp] theorem logPrim_err (p : PrimEvent) : (s.logPrim p).err = s.err := rfl
@[simp] theorem logPrim_ops (p : PrimEvent) : (s.logPrim p).ops = s.ops := rfl
@[simp] theorem logPrim_res (p : PrimEvent) : (s.logPrim p).res = s.res := rfl
@[simp] theorem logPrim_capacity (p : PrimEvent) : (s.logPrim p).capacity = s.capacity := rfl
@[simp] theorem logPrim_cursor (p : PrimEvent) : (s.logPrim p).cursor = s.cursor := rfl
@[simp] theorem logPrim_dt (p : PrimEvent) : (s.logPrim p).dt = s.dt := rfl
@[simp] theorem logPrim_hw (p : PrimEvent) : (s.logPrim p).hw = s.hw := rfl
@[simp] theorem logPrim_dbuf (p : PrimEvent) : (s.logPrim p).dbuf = s.dbuf := rfl
@[simp] theorem logPrim_bte (p : PrimEvent) : (s.logPrim p).bte = s.bte := rfl
@[simp] theorem logPrim_seq (p : PrimEvent) : (s.logPrim p).seq = s.seq := rfl
@[simp] theorem logPrim_tx (p : PrimEvent) : (s.logPrim p).tx = s.tx := rfl
@[simp] theorem logPrim_env (p : PrimEvent) : (s.logPrim p).env = { s.env with prims := s.env.prims ++ [p] } := rfl

/-! ### logRead -/

@[simp] theorem logRead_cfg (a : HostAddr) (v : Byte) : (s.logRead a v).cfg = s.cfg := rfl
@[simp] theorem logRead_cmd (a : HostAddr) (v : Byte) : (s.logRead a v).cmd = s.cmd := rfl
@[simp] theorem logRead_busy (a : HostAddr) (v : Byte) : (s.logRead a v).busy = s.busy := rfl
@[simp] theorem logRead_fail (a : HostAddr) (v : Byte) : (s.logRead a v).fail = s.fail := rfl
@[simp] theorem logRead_tickp (a : HostAddr) (v : Byte) : (s.logRead a v).tickp = s.tickp := rfl
@[simp] theorem logRead_ovr (a : HostAddr) (v : Byte) : (s.logRead a v).ovr = s.ovr := rfl
@[simp] theorem logRead_cfgok (a : HostAddr) (v : Byte) : (s.logRead a v).cfgok = s.cfgok := rfl
@[simp] theorem logRead_src (a : HostAddr) (v : Byte) : (s.logRead a v).src = s.src := rfl
@[simp] theorem logRead_tickEn (a : HostAddr) (v : Byte) : (s.logRead a v).tickEn = s.tickEn := rfl
@[simp] theorem logRead_halt (a : HostAddr) (v : Byte) : (s.logRead a v).halt = s.halt := rfl
@[simp] theorem logRead_err (a : HostAddr) (v : Byte) : (s.logRead a v).err = s.err := rfl
@[simp] theorem logRead_ops (a : HostAddr) (v : Byte) : (s.logRead a v).ops = s.ops := rfl
@[simp] theorem logRead_res (a : HostAddr) (v : Byte) : (s.logRead a v).res = s.res := rfl
@[simp] theorem logRead_capacity (a : HostAddr) (v : Byte) : (s.logRead a v).capacity = s.capacity := rfl
@[simp] theorem logRead_cursor (a : HostAddr) (v : Byte) : (s.logRead a v).cursor = s.cursor := rfl
@[simp] theorem logRead_dt (a : HostAddr) (v : Byte) : (s.logRead a v).dt = s.dt := rfl
@[simp] theorem logRead_hw (a : HostAddr) (v : Byte) : (s.logRead a v).hw = s.hw := rfl
@[simp] theorem logRead_dbuf (a : HostAddr) (v : Byte) : (s.logRead a v).dbuf = s.dbuf := rfl
@[simp] theorem logRead_bte (a : HostAddr) (v : Byte) : (s.logRead a v).bte = s.bte := rfl
@[simp] theorem logRead_seq (a : HostAddr) (v : Byte) : (s.logRead a v).seq = s.seq := rfl
@[simp] theorem logRead_tx (a : HostAddr) (v : Byte) : (s.logRead a v).tx = s.tx := rfl
@[simp] theorem logRead_env (a : HostAddr) (v : Byte) :
    (s.logRead a v).env =
      { s.env with reads := s.env.reads ++ [(a, v)] } := rfl

/-! ### drawRead -/

@[simp] theorem drawRead_cfg (a : HostAddr) : (s.drawRead a).cfg = s.cfg := rfl
@[simp] theorem drawRead_cmd (a : HostAddr) : (s.drawRead a).cmd = s.cmd := rfl
@[simp] theorem drawRead_busy (a : HostAddr) : (s.drawRead a).busy = s.busy := rfl
@[simp] theorem drawRead_fail (a : HostAddr) : (s.drawRead a).fail = s.fail := rfl
@[simp] theorem drawRead_tickp (a : HostAddr) : (s.drawRead a).tickp = s.tickp := rfl
@[simp] theorem drawRead_ovr (a : HostAddr) : (s.drawRead a).ovr = s.ovr := rfl
@[simp] theorem drawRead_cfgok (a : HostAddr) : (s.drawRead a).cfgok = s.cfgok := rfl
@[simp] theorem drawRead_src (a : HostAddr) : (s.drawRead a).src = s.src := rfl
@[simp] theorem drawRead_tickEn (a : HostAddr) : (s.drawRead a).tickEn = s.tickEn := rfl
@[simp] theorem drawRead_halt (a : HostAddr) : (s.drawRead a).halt = s.halt := rfl
@[simp] theorem drawRead_err (a : HostAddr) : (s.drawRead a).err = s.err := rfl
@[simp] theorem drawRead_ops (a : HostAddr) : (s.drawRead a).ops = s.ops := rfl
@[simp] theorem drawRead_res (a : HostAddr) : (s.drawRead a).res = s.res := rfl
@[simp] theorem drawRead_capacity (a : HostAddr) : (s.drawRead a).capacity = s.capacity := rfl
@[simp] theorem drawRead_cursor (a : HostAddr) : (s.drawRead a).cursor = s.cursor := rfl
@[simp] theorem drawRead_dt (a : HostAddr) : (s.drawRead a).dt = s.dt := rfl
@[simp] theorem drawRead_hw (a : HostAddr) : (s.drawRead a).hw = s.hw := rfl
@[simp] theorem drawRead_dbuf (a : HostAddr) : (s.drawRead a).dbuf = s.dbuf := rfl
@[simp] theorem drawRead_bte (a : HostAddr) : (s.drawRead a).bte = s.bte := rfl
@[simp] theorem drawRead_seq (a : HostAddr) : (s.drawRead a).seq = s.seq := rfl
@[simp] theorem drawRead_tx (a : HostAddr) : (s.drawRead a).tx = s.tx := rfl
@[simp] theorem drawRead_env (a : HostAddr) :
    (s.drawRead a).env =
      { s.env with reads := s.env.reads ++ [(a, Config.hostReadDraw s.env.draws)], draws := s.env.draws + 1 } := rfl

/-! ### latchTick -/

@[simp] theorem latchTick_cfg (b : Bool) : (s.latchTick b).cfg = s.cfg := rfl
@[simp] theorem latchTick_cmd (b : Bool) : (s.latchTick b).cmd = s.cmd := rfl
@[simp] theorem latchTick_busy (b : Bool) : (s.latchTick b).busy = s.busy := rfl
@[simp] theorem latchTick_fail (b : Bool) : (s.latchTick b).fail = s.fail := rfl
@[simp] theorem latchTick_tickp (b : Bool) : (s.latchTick b).tickp = (s.tickp || b) := rfl
@[simp] theorem latchTick_ovr (b : Bool) : (s.latchTick b).ovr = s.ovr := rfl
@[simp] theorem latchTick_cfgok (b : Bool) : (s.latchTick b).cfgok = s.cfgok := rfl
@[simp] theorem latchTick_src (b : Bool) : (s.latchTick b).src = s.src := rfl
@[simp] theorem latchTick_tickEn (b : Bool) : (s.latchTick b).tickEn = s.tickEn := rfl
@[simp] theorem latchTick_halt (b : Bool) : (s.latchTick b).halt = s.halt := rfl
@[simp] theorem latchTick_err (b : Bool) : (s.latchTick b).err = s.err := rfl
@[simp] theorem latchTick_ops (b : Bool) : (s.latchTick b).ops = s.ops := rfl
@[simp] theorem latchTick_res (b : Bool) : (s.latchTick b).res = s.res := rfl
@[simp] theorem latchTick_capacity (b : Bool) : (s.latchTick b).capacity = s.capacity := rfl
@[simp] theorem latchTick_cursor (b : Bool) : (s.latchTick b).cursor = s.cursor := rfl
@[simp] theorem latchTick_dt (b : Bool) : (s.latchTick b).dt = s.dt := rfl
@[simp] theorem latchTick_hw (b : Bool) : (s.latchTick b).hw = s.hw := rfl
@[simp] theorem latchTick_dbuf (b : Bool) : (s.latchTick b).dbuf = s.dbuf := rfl
@[simp] theorem latchTick_bte (b : Bool) : (s.latchTick b).bte = s.bte := rfl
@[simp] theorem latchTick_seq (b : Bool) : (s.latchTick b).seq = s.seq := rfl
@[simp] theorem latchTick_tx (b : Bool) : (s.latchTick b).tx = s.tx := rfl
@[simp] theorem latchTick_env (b : Bool) : (s.latchTick b).env = s.env := rfl

/-! ### raise -/

@[simp] theorem raise_cfg (c : FailCode) : (s.raise c).cfg = s.cfg := rfl
@[simp] theorem raise_cmd (c : FailCode) : (s.raise c).cmd = s.cmd := rfl
@[simp] theorem raise_busy (c : FailCode) : (s.raise c).busy = s.busy := rfl
@[simp] theorem raise_fail (c : FailCode) : (s.raise c).fail = s.fail := rfl
@[simp] theorem raise_tickp (c : FailCode) : (s.raise c).tickp = s.tickp := rfl
@[simp] theorem raise_ovr (c : FailCode) : (s.raise c).ovr = s.ovr := rfl
@[simp] theorem raise_cfgok (c : FailCode) : (s.raise c).cfgok = s.cfgok := rfl
@[simp] theorem raise_src (c : FailCode) : (s.raise c).src = s.src := rfl
@[simp] theorem raise_tickEn (c : FailCode) : (s.raise c).tickEn = s.tickEn := rfl
@[simp] theorem raise_halt (c : FailCode) : (s.raise c).halt = s.halt := rfl
@[simp] theorem raise_err (c : FailCode) : (s.raise c).err = c.code := rfl
@[simp] theorem raise_ops (c : FailCode) : (s.raise c).ops = s.ops := rfl
@[simp] theorem raise_res (c : FailCode) : (s.raise c).res = s.res := rfl
@[simp] theorem raise_capacity (c : FailCode) : (s.raise c).capacity = s.capacity := rfl
@[simp] theorem raise_cursor (c : FailCode) : (s.raise c).cursor = s.cursor := rfl
@[simp] theorem raise_dt (c : FailCode) : (s.raise c).dt = s.dt := rfl
@[simp] theorem raise_hw (c : FailCode) : (s.raise c).hw = s.hw := rfl
@[simp] theorem raise_dbuf (c : FailCode) : (s.raise c).dbuf = s.dbuf := rfl
@[simp] theorem raise_bte (c : FailCode) : (s.raise c).bte = s.bte := rfl
@[simp] theorem raise_seq (c : FailCode) : (s.raise c).seq = s.seq := rfl
@[simp] theorem raise_tx (c : FailCode) : (s.raise c).tx = s.tx := rfl
@[simp] theorem raise_env (c : FailCode) : (s.raise c).env = s.env := rfl

/-! ### complete -/

@[simp] theorem complete_cfg (f : Bool) : (s.complete f).cfg = s.cfg := rfl
@[simp] theorem complete_cmd (f : Bool) : (s.complete f).cmd = s.cmd := rfl
@[simp] theorem complete_busy (f : Bool) : (s.complete f).busy = false := rfl
@[simp] theorem complete_fail (f : Bool) : (s.complete f).fail = f := rfl
@[simp] theorem complete_tickp (f : Bool) : (s.complete f).tickp = s.tickp := rfl
@[simp] theorem complete_ovr (f : Bool) : (s.complete f).ovr = s.ovr := rfl
@[simp] theorem complete_cfgok (f : Bool) : (s.complete f).cfgok = s.cfgok := rfl
@[simp] theorem complete_src (f : Bool) : (s.complete f).src = s.src := rfl
@[simp] theorem complete_tickEn (f : Bool) : (s.complete f).tickEn = s.tickEn := rfl
@[simp] theorem complete_halt (f : Bool) : (s.complete f).halt = s.halt := rfl
@[simp] theorem complete_err (f : Bool) : (s.complete f).err = s.err := rfl
@[simp] theorem complete_ops (f : Bool) : (s.complete f).ops = s.ops := rfl
@[simp] theorem complete_res (f : Bool) : (s.complete f).res = s.res := rfl
@[simp] theorem complete_capacity (f : Bool) : (s.complete f).capacity = s.capacity := rfl
@[simp] theorem complete_cursor (f : Bool) : (s.complete f).cursor = s.cursor := rfl
@[simp] theorem complete_dt (f : Bool) : (s.complete f).dt = s.dt := rfl
@[simp] theorem complete_hw (f : Bool) : (s.complete f).hw = s.hw := rfl
@[simp] theorem complete_dbuf (f : Bool) : (s.complete f).dbuf = s.dbuf := rfl
@[simp] theorem complete_bte (f : Bool) : (s.complete f).bte = { s.bte with pstate := .idle } := rfl
@[simp] theorem complete_seq (f : Bool) : (s.complete f).seq = { s.seq with task := .idle } := rfl
@[simp] theorem complete_tx (f : Bool) : (s.complete f).tx = s.tx := rfl
@[simp] theorem complete_env (f : Bool) : (s.complete f).env = s.env := rfl

/-! ### completePass -/

@[simp] theorem completePass_cfg (f : Bool) : (s.completePass f).cfg = s.cfg := rfl
@[simp] theorem completePass_cmd (f : Bool) : (s.completePass f).cmd = s.cmd := rfl
@[simp] theorem completePass_busy (f : Bool) : (s.completePass f).busy = false := rfl
@[simp] theorem completePass_fail (f : Bool) : (s.completePass f).fail = f := rfl
@[simp] theorem completePass_tickp (f : Bool) : (s.completePass f).tickp = false := rfl
@[simp] theorem completePass_ovr (f : Bool) : (s.completePass f).ovr = s.ovr := rfl
@[simp] theorem completePass_cfgok (f : Bool) : (s.completePass f).cfgok = s.cfgok := rfl
@[simp] theorem completePass_src (f : Bool) : (s.completePass f).src = s.src := rfl
@[simp] theorem completePass_tickEn (f : Bool) : (s.completePass f).tickEn = s.tickEn := rfl
@[simp] theorem completePass_halt (f : Bool) : (s.completePass f).halt = s.halt := rfl
@[simp] theorem completePass_err (f : Bool) : (s.completePass f).err = s.err := rfl
@[simp] theorem completePass_ops (f : Bool) : (s.completePass f).ops = s.ops := rfl
@[simp] theorem completePass_res (f : Bool) : (s.completePass f).res = s.res := rfl
@[simp] theorem completePass_capacity (f : Bool) : (s.completePass f).capacity = s.capacity := rfl
@[simp] theorem completePass_cursor (f : Bool) : (s.completePass f).cursor = s.cursor := rfl
@[simp] theorem completePass_dt (f : Bool) : (s.completePass f).dt = s.dt := rfl
@[simp] theorem completePass_hw (f : Bool) : (s.completePass f).hw = s.hw := rfl
@[simp] theorem completePass_dbuf (f : Bool) : (s.completePass f).dbuf = s.dbuf := rfl
@[simp] theorem completePass_bte (f : Bool) : (s.completePass f).bte = { s.bte with pstate := .idle } := rfl
@[simp] theorem completePass_seq (f : Bool) : (s.completePass f).seq = { s.seq with task := .idle } := rfl
@[simp] theorem completePass_tx (f : Bool) : (s.completePass f).tx = s.tx := rfl
@[simp] theorem completePass_env (f : Bool) : (s.completePass f).env = s.env := rfl

/-! ### discard -/

@[simp] theorem discard_cfg : s.discard.cfg = s.cfg := rfl
@[simp] theorem discard_cmd : s.discard.cmd = s.cmd := rfl
@[simp] theorem discard_busy : s.discard.busy = s.busy := rfl
@[simp] theorem discard_fail : s.discard.fail = s.fail := rfl
@[simp] theorem discard_tickp : s.discard.tickp = s.tickp := rfl
@[simp] theorem discard_ovr : s.discard.ovr = true := rfl
@[simp] theorem discard_cfgok : s.discard.cfgok = s.cfgok := rfl
@[simp] theorem discard_src : s.discard.src = s.src := rfl
@[simp] theorem discard_tickEn : s.discard.tickEn = s.tickEn := rfl
@[simp] theorem discard_halt : s.discard.halt = s.halt := rfl
@[simp] theorem discard_err : s.discard.err = s.err := rfl
@[simp] theorem discard_ops : s.discard.ops = s.ops := rfl
@[simp] theorem discard_res : s.discard.res = s.res := rfl
@[simp] theorem discard_capacity : s.discard.capacity = s.capacity := rfl
@[simp] theorem discard_cursor : s.discard.cursor = s.cursor := rfl
@[simp] theorem discard_dt : s.discard.dt = s.dt := rfl
@[simp] theorem discard_hw : s.discard.hw = s.hw := rfl
@[simp] theorem discard_dbuf : s.discard.dbuf = s.dbuf := rfl
@[simp] theorem discard_bte : s.discard.bte = s.bte := rfl
@[simp] theorem discard_seq : s.discard.seq = s.seq := rfl
@[simp] theorem discard_tx : s.discard.tx = s.tx := rfl
@[simp] theorem discard_env : s.discard.env = s.env := rfl

/-! ### ctrlWrite -/

@[simp] theorem ctrlWrite_cfg (v : Byte) : (s.ctrlWrite v).cfg = s.cfg := rfl
@[simp] theorem ctrlWrite_cmd (v : Byte) : (s.ctrlWrite v).cmd = s.cmd := rfl
@[simp] theorem ctrlWrite_busy (v : Byte) : (s.ctrlWrite v).busy = s.busy := rfl
@[simp] theorem ctrlWrite_fail (v : Byte) : (s.ctrlWrite v).fail = s.fail := rfl
@[simp] theorem ctrlWrite_tickp (v : Byte) : (s.ctrlWrite v).tickp = s.tickp := rfl
@[simp] theorem ctrlWrite_ovr (v : Byte) : (s.ctrlWrite v).ovr = (s.ovr && !v.getLsbD 2) := rfl
@[simp] theorem ctrlWrite_cfgok (v : Byte) : (s.ctrlWrite v).cfgok = s.cfgok := rfl
@[simp] theorem ctrlWrite_src (v : Byte) : (s.ctrlWrite v).src = s.src := rfl
@[simp] theorem ctrlWrite_tickEn (v : Byte) : (s.ctrlWrite v).tickEn = v.getLsbD 0 := rfl
@[simp] theorem ctrlWrite_halt (v : Byte) : (s.ctrlWrite v).halt = (s.halt || v.getLsbD 1) := rfl
@[simp] theorem ctrlWrite_err (v : Byte) : (s.ctrlWrite v).err = s.err := rfl
@[simp] theorem ctrlWrite_ops (v : Byte) : (s.ctrlWrite v).ops = s.ops := rfl
@[simp] theorem ctrlWrite_res (v : Byte) : (s.ctrlWrite v).res = s.res := rfl
@[simp] theorem ctrlWrite_capacity (v : Byte) : (s.ctrlWrite v).capacity = s.capacity := rfl
@[simp] theorem ctrlWrite_cursor (v : Byte) : (s.ctrlWrite v).cursor = s.cursor := rfl
@[simp] theorem ctrlWrite_dt (v : Byte) : (s.ctrlWrite v).dt = s.dt := rfl
@[simp] theorem ctrlWrite_hw (v : Byte) : (s.ctrlWrite v).hw = s.hw := rfl
@[simp] theorem ctrlWrite_dbuf (v : Byte) : (s.ctrlWrite v).dbuf = s.dbuf := rfl
@[simp] theorem ctrlWrite_bte (v : Byte) : (s.ctrlWrite v).bte = s.bte := rfl
@[simp] theorem ctrlWrite_seq (v : Byte) : (s.ctrlWrite v).seq = s.seq := rfl
@[simp] theorem ctrlWrite_tx (v : Byte) : (s.ctrlWrite v).tx = s.tx := rfl
@[simp] theorem ctrlWrite_env (v : Byte) : (s.ctrlWrite v).env = s.env := rfl

/-! ### commandStart -/

@[simp] theorem commandStart_cfg (c : Byte) : (s.commandStart c).cfg = s.cfg := rfl
@[simp] theorem commandStart_cmd (c : Byte) : (s.commandStart c).cmd = c := rfl
@[simp] theorem commandStart_busy (c : Byte) : (s.commandStart c).busy = true := rfl
@[simp] theorem commandStart_fail (c : Byte) : (s.commandStart c).fail = s.fail := rfl
@[simp] theorem commandStart_tickp (c : Byte) : (s.commandStart c).tickp = s.tickp := rfl
@[simp] theorem commandStart_ovr (c : Byte) : (s.commandStart c).ovr = s.ovr := rfl
@[simp] theorem commandStart_cfgok (c : Byte) : (s.commandStart c).cfgok = s.cfgok := rfl
@[simp] theorem commandStart_src (c : Byte) : (s.commandStart c).src = false := rfl
@[simp] theorem commandStart_tickEn (c : Byte) : (s.commandStart c).tickEn = s.tickEn := rfl
@[simp] theorem commandStart_halt (c : Byte) : (s.commandStart c).halt = s.halt := rfl
@[simp] theorem commandStart_err (c : Byte) : (s.commandStart c).err = 0 := rfl
@[simp] theorem commandStart_ops (c : Byte) : (s.commandStart c).ops = s.ops := rfl
@[simp] theorem commandStart_res (c : Byte) : (s.commandStart c).res = s.res := rfl
@[simp] theorem commandStart_capacity (c : Byte) : (s.commandStart c).capacity = s.capacity := rfl
@[simp] theorem commandStart_cursor (c : Byte) : (s.commandStart c).cursor = s.cursor := rfl
@[simp] theorem commandStart_dt (c : Byte) : (s.commandStart c).dt = s.dt := rfl
@[simp] theorem commandStart_hw (c : Byte) : (s.commandStart c).hw = s.hw := rfl
@[simp] theorem commandStart_dbuf (c : Byte) : (s.commandStart c).dbuf = s.dbuf := rfl
@[simp] theorem commandStart_bte (c : Byte) : (s.commandStart c).bte = s.bte := rfl
@[simp] theorem commandStart_seq (c : Byte) : (s.commandStart c).seq = s.seq := rfl
@[simp] theorem commandStart_tx (c : Byte) : (s.commandStart c).tx = s.tx := rfl
@[simp] theorem commandStart_env (c : Byte) : (s.commandStart c).env = s.env := rfl

/-! ### tickStart -/

@[simp] theorem tickStart_cfg : s.tickStart.cfg = s.cfg := rfl
@[simp] theorem tickStart_cmd : s.tickStart.cmd = s.cmd := rfl
@[simp] theorem tickStart_busy : s.tickStart.busy = true := rfl
@[simp] theorem tickStart_fail : s.tickStart.fail = s.fail := rfl
@[simp] theorem tickStart_tickp : s.tickStart.tickp = s.tickp := rfl
@[simp] theorem tickStart_ovr : s.tickStart.ovr = s.ovr := rfl
@[simp] theorem tickStart_cfgok : s.tickStart.cfgok = s.cfgok := rfl
@[simp] theorem tickStart_src : s.tickStart.src = true := rfl
@[simp] theorem tickStart_tickEn : s.tickStart.tickEn = s.tickEn := rfl
@[simp] theorem tickStart_halt : s.tickStart.halt = s.halt := rfl
@[simp] theorem tickStart_err : s.tickStart.err = 0 := rfl
@[simp] theorem tickStart_ops : s.tickStart.ops = s.ops := rfl
@[simp] theorem tickStart_res : s.tickStart.res = s.res := rfl
@[simp] theorem tickStart_capacity : s.tickStart.capacity = s.capacity := rfl
@[simp] theorem tickStart_cursor : s.tickStart.cursor = s.cursor := rfl
@[simp] theorem tickStart_dt : s.tickStart.dt = s.dt := rfl
@[simp] theorem tickStart_hw : s.tickStart.hw = s.hw := rfl
@[simp] theorem tickStart_dbuf : s.tickStart.dbuf = s.dbuf := rfl
@[simp] theorem tickStart_bte : s.tickStart.bte = s.bte := rfl
@[simp] theorem tickStart_seq : s.tickStart.seq = s.seq := rfl
@[simp] theorem tickStart_tx : s.tickStart.tx = s.tx := rfl
@[simp] theorem tickStart_env : s.tickStart.env = s.env := rfl

/-! ### dbufSet -/

@[simp] theorem dbufSet_cfg (i v : Byte) : (s.dbufSet i v).cfg = s.cfg := rfl
@[simp] theorem dbufSet_cmd (i v : Byte) : (s.dbufSet i v).cmd = s.cmd := rfl
@[simp] theorem dbufSet_busy (i v : Byte) : (s.dbufSet i v).busy = s.busy := rfl
@[simp] theorem dbufSet_fail (i v : Byte) : (s.dbufSet i v).fail = s.fail := rfl
@[simp] theorem dbufSet_tickp (i v : Byte) : (s.dbufSet i v).tickp = s.tickp := rfl
@[simp] theorem dbufSet_ovr (i v : Byte) : (s.dbufSet i v).ovr = s.ovr := rfl
@[simp] theorem dbufSet_cfgok (i v : Byte) : (s.dbufSet i v).cfgok = s.cfgok := rfl
@[simp] theorem dbufSet_src (i v : Byte) : (s.dbufSet i v).src = s.src := rfl
@[simp] theorem dbufSet_tickEn (i v : Byte) : (s.dbufSet i v).tickEn = s.tickEn := rfl
@[simp] theorem dbufSet_halt (i v : Byte) : (s.dbufSet i v).halt = s.halt := rfl
@[simp] theorem dbufSet_err (i v : Byte) : (s.dbufSet i v).err = s.err := rfl
@[simp] theorem dbufSet_ops (i v : Byte) : (s.dbufSet i v).ops = s.ops := rfl
@[simp] theorem dbufSet_res (i v : Byte) : (s.dbufSet i v).res = s.res := rfl
@[simp] theorem dbufSet_capacity (i v : Byte) : (s.dbufSet i v).capacity = s.capacity := rfl
@[simp] theorem dbufSet_cursor (i v : Byte) : (s.dbufSet i v).cursor = s.cursor := rfl
@[simp] theorem dbufSet_dt (i v : Byte) : (s.dbufSet i v).dt = s.dt := rfl
@[simp] theorem dbufSet_hw (i v : Byte) : (s.dbufSet i v).hw = s.hw := rfl
@[simp] theorem dbufSet_dbuf (i v : Byte) : (s.dbufSet i v).dbuf = Memory.write s.dbuf i.toNat v := rfl
@[simp] theorem dbufSet_bte (i v : Byte) : (s.dbufSet i v).bte = s.bte := rfl
@[simp] theorem dbufSet_seq (i v : Byte) : (s.dbufSet i v).seq = s.seq := rfl
@[simp] theorem dbufSet_tx (i v : Byte) : (s.dbufSet i v).tx = s.tx := rfl
@[simp] theorem dbufSet_env (i v : Byte) : (s.dbufSet i v).env = s.env := rfl

/-! ### startXfer -/

@[simp] theorem startXfer_cfg (k : XKind) (d : DevAddr) (w : BitVec 2) (o : Half) (n : Byte) :
    (s.startXfer k d w o n).cfg =
      s.cfg := rfl
@[simp] theorem startXfer_cmd (k : XKind) (d : DevAddr) (w : BitVec 2) (o : Half) (n : Byte) :
    (s.startXfer k d w o n).cmd =
      s.cmd := rfl
@[simp] theorem startXfer_busy (k : XKind) (d : DevAddr) (w : BitVec 2) (o : Half) (n : Byte) :
    (s.startXfer k d w o n).busy =
      s.busy := rfl
@[simp] theorem startXfer_fail (k : XKind) (d : DevAddr) (w : BitVec 2) (o : Half) (n : Byte) :
    (s.startXfer k d w o n).fail =
      s.fail := rfl
@[simp] theorem startXfer_tickp (k : XKind) (d : DevAddr) (w : BitVec 2) (o : Half) (n : Byte) :
    (s.startXfer k d w o n).tickp =
      s.tickp := rfl
@[simp] theorem startXfer_ovr (k : XKind) (d : DevAddr) (w : BitVec 2) (o : Half) (n : Byte) :
    (s.startXfer k d w o n).ovr =
      s.ovr := rfl
@[simp] theorem startXfer_cfgok (k : XKind) (d : DevAddr) (w : BitVec 2) (o : Half) (n : Byte) :
    (s.startXfer k d w o n).cfgok =
      s.cfgok := rfl
@[simp] theorem startXfer_src (k : XKind) (d : DevAddr) (w : BitVec 2) (o : Half) (n : Byte) :
    (s.startXfer k d w o n).src =
      s.src := rfl
@[simp] theorem startXfer_tickEn (k : XKind) (d : DevAddr) (w : BitVec 2) (o : Half) (n : Byte) :
    (s.startXfer k d w o n).tickEn =
      s.tickEn := rfl
@[simp] theorem startXfer_halt (k : XKind) (d : DevAddr) (w : BitVec 2) (o : Half) (n : Byte) :
    (s.startXfer k d w o n).halt =
      s.halt := rfl
@[simp] theorem startXfer_err (k : XKind) (d : DevAddr) (w : BitVec 2) (o : Half) (n : Byte) :
    (s.startXfer k d w o n).err =
      s.err := rfl
@[simp] theorem startXfer_ops (k : XKind) (d : DevAddr) (w : BitVec 2) (o : Half) (n : Byte) :
    (s.startXfer k d w o n).ops =
      s.ops := rfl
@[simp] theorem startXfer_res (k : XKind) (d : DevAddr) (w : BitVec 2) (o : Half) (n : Byte) :
    (s.startXfer k d w o n).res =
      s.res := rfl
@[simp] theorem startXfer_capacity (k : XKind) (d : DevAddr) (w : BitVec 2) (o : Half) (n : Byte) :
    (s.startXfer k d w o n).capacity =
      s.capacity := rfl
@[simp] theorem startXfer_cursor (k : XKind) (d : DevAddr) (w : BitVec 2) (o : Half) (n : Byte) :
    (s.startXfer k d w o n).cursor =
      s.cursor := rfl
@[simp] theorem startXfer_dt (k : XKind) (d : DevAddr) (w : BitVec 2) (o : Half) (n : Byte) :
    (s.startXfer k d w o n).dt =
      s.dt := rfl
@[simp] theorem startXfer_hw (k : XKind) (d : DevAddr) (w : BitVec 2) (o : Half) (n : Byte) :
    (s.startXfer k d w o n).hw =
      s.hw := rfl
@[simp] theorem startXfer_dbuf (k : XKind) (d : DevAddr) (w : BitVec 2) (o : Half) (n : Byte) :
    (s.startXfer k d w o n).dbuf =
      s.dbuf := rfl
@[simp] theorem startXfer_bte (k : XKind) (d : DevAddr) (w : BitVec 2) (o : Half) (n : Byte) :
    (s.startXfer k d w o n).bte =
      { s.bte with xkind := k, xdev := d, xaw := w, xoff := o, xlen := n, iter := 0, owned := false, bidx := 0, pstate := .start } := rfl
@[simp] theorem startXfer_seq (k : XKind) (d : DevAddr) (w : BitVec 2) (o : Half) (n : Byte) :
    (s.startXfer k d w o n).seq =
      s.seq := rfl
@[simp] theorem startXfer_tx (k : XKind) (d : DevAddr) (w : BitVec 2) (o : Half) (n : Byte) :
    (s.startXfer k d w o n).tx =
      s.tx := rfl
@[simp] theorem startXfer_env (k : XKind) (d : DevAddr) (w : BitVec 2) (o : Half) (n : Byte) :
    (s.startXfer k d w o n).env =
      s.env := rfl

/-! ### restart -/

@[simp] theorem restart_cfg : s.restart.cfg = s.cfg := rfl
@[simp] theorem restart_cmd : s.restart.cmd = s.cmd := rfl
@[simp] theorem restart_busy : s.restart.busy = s.busy := rfl
@[simp] theorem restart_fail : s.restart.fail = s.fail := rfl
@[simp] theorem restart_tickp : s.restart.tickp = s.tickp := rfl
@[simp] theorem restart_ovr : s.restart.ovr = s.ovr := rfl
@[simp] theorem restart_cfgok : s.restart.cfgok = s.cfgok := rfl
@[simp] theorem restart_src : s.restart.src = s.src := rfl
@[simp] theorem restart_tickEn : s.restart.tickEn = s.tickEn := rfl
@[simp] theorem restart_halt : s.restart.halt = s.halt := rfl
@[simp] theorem restart_err : s.restart.err = s.err := rfl
@[simp] theorem restart_ops : s.restart.ops = s.ops := rfl
@[simp] theorem restart_res : s.restart.res = s.res := rfl
@[simp] theorem restart_capacity : s.restart.capacity = s.capacity := rfl
@[simp] theorem restart_cursor : s.restart.cursor = s.cursor := rfl
@[simp] theorem restart_dt : s.restart.dt = s.dt := rfl
@[simp] theorem restart_hw : s.restart.hw = s.hw := rfl
@[simp] theorem restart_dbuf : s.restart.dbuf = s.dbuf := rfl
@[simp] theorem restart_bte : s.restart.bte = { s.bte with pstate := .start, bidx := 0 } := rfl
@[simp] theorem restart_seq : s.restart.seq = s.seq := rfl
@[simp] theorem restart_tx : s.restart.tx = s.tx := rfl
@[simp] theorem restart_env : s.restart.env = s.env := rfl

/-! ### abort -/

@[simp] theorem abort_cfg (c : FailCode) : (s.abort c).cfg = s.cfg := rfl
@[simp] theorem abort_cmd (c : FailCode) : (s.abort c).cmd = s.cmd := rfl
@[simp] theorem abort_busy (c : FailCode) : (s.abort c).busy = s.busy := rfl
@[simp] theorem abort_fail (c : FailCode) : (s.abort c).fail = s.fail := rfl
@[simp] theorem abort_tickp (c : FailCode) : (s.abort c).tickp = s.tickp := rfl
@[simp] theorem abort_ovr (c : FailCode) : (s.abort c).ovr = s.ovr := rfl
@[simp] theorem abort_cfgok (c : FailCode) : (s.abort c).cfgok = s.cfgok := rfl
@[simp] theorem abort_src (c : FailCode) : (s.abort c).src = s.src := rfl
@[simp] theorem abort_tickEn (c : FailCode) : (s.abort c).tickEn = s.tickEn := rfl
@[simp] theorem abort_halt (c : FailCode) : (s.abort c).halt = s.halt := rfl
@[simp] theorem abort_err (c : FailCode) : (s.abort c).err = s.err := rfl
@[simp] theorem abort_ops (c : FailCode) : (s.abort c).ops = s.ops := rfl
@[simp] theorem abort_res (c : FailCode) : (s.abort c).res = s.res := rfl
@[simp] theorem abort_capacity (c : FailCode) : (s.abort c).capacity = s.capacity := rfl
@[simp] theorem abort_cursor (c : FailCode) : (s.abort c).cursor = s.cursor := rfl
@[simp] theorem abort_dt (c : FailCode) : (s.abort c).dt = s.dt := rfl
@[simp] theorem abort_hw (c : FailCode) : (s.abort c).hw = s.hw := rfl
@[simp] theorem abort_dbuf (c : FailCode) : (s.abort c).dbuf = s.dbuf := rfl
@[simp] theorem abort_bte (c : FailCode) : (s.abort c).bte = { s.bte with pstate := .stopFail, xcode := c } := rfl
@[simp] theorem abort_seq (c : FailCode) : (s.abort c).seq = s.seq := rfl
@[simp] theorem abort_tx (c : FailCode) : (s.abort c).tx = s.tx := rfl
@[simp] theorem abort_env (c : FailCode) : (s.abort c).env = s.env := rfl

/-! ### latchTime -/

@[simp] theorem latchTime_cfg : s.latchTime.cfg = s.cfg := rfl
@[simp] theorem latchTime_cmd : s.latchTime.cmd = s.cmd := rfl
@[simp] theorem latchTime_busy : s.latchTime.busy = s.busy := rfl
@[simp] theorem latchTime_fail : s.latchTime.fail = s.fail := rfl
@[simp] theorem latchTime_tickp : s.latchTime.tickp = s.tickp := rfl
@[simp] theorem latchTime_ovr : s.latchTime.ovr = s.ovr := rfl
@[simp] theorem latchTime_cfgok : s.latchTime.cfgok = s.cfgok := rfl
@[simp] theorem latchTime_src : s.latchTime.src = s.src := rfl
@[simp] theorem latchTime_tickEn : s.latchTime.tickEn = s.tickEn := rfl
@[simp] theorem latchTime_halt : s.latchTime.halt = s.halt := rfl
@[simp] theorem latchTime_err : s.latchTime.err = s.err := rfl
@[simp] theorem latchTime_ops : s.latchTime.ops = s.ops := rfl
@[simp] theorem latchTime_res : s.latchTime.res = s.res := rfl
@[simp] theorem latchTime_capacity : s.latchTime.capacity = s.capacity := rfl
@[simp] theorem latchTime_cursor : s.latchTime.cursor = s.cursor := rfl
@[simp] theorem latchTime_dt : s.latchTime.dt = s.decodedTime := rfl
@[simp] theorem latchTime_hw : s.latchTime.hw = s.hw := rfl
@[simp] theorem latchTime_dbuf : s.latchTime.dbuf = s.dbuf := rfl
@[simp] theorem latchTime_bte : s.latchTime.bte = s.bte := rfl
@[simp] theorem latchTime_seq : s.latchTime.seq = s.seq := rfl
@[simp] theorem latchTime_tx : s.latchTime.tx = s.tx := rfl
@[simp] theorem latchTime_env : s.latchTime.env = s.env := rfl

/-! ### zeroCursor -/

@[simp] theorem zeroCursor_cfg : s.zeroCursor.cfg = s.cfg := rfl
@[simp] theorem zeroCursor_cmd : s.zeroCursor.cmd = s.cmd := rfl
@[simp] theorem zeroCursor_busy : s.zeroCursor.busy = s.busy := rfl
@[simp] theorem zeroCursor_fail : s.zeroCursor.fail = s.fail := rfl
@[simp] theorem zeroCursor_tickp : s.zeroCursor.tickp = s.tickp := rfl
@[simp] theorem zeroCursor_ovr : s.zeroCursor.ovr = s.ovr := rfl
@[simp] theorem zeroCursor_cfgok : s.zeroCursor.cfgok = s.cfgok := rfl
@[simp] theorem zeroCursor_src : s.zeroCursor.src = s.src := rfl
@[simp] theorem zeroCursor_tickEn : s.zeroCursor.tickEn = s.tickEn := rfl
@[simp] theorem zeroCursor_halt : s.zeroCursor.halt = s.halt := rfl
@[simp] theorem zeroCursor_err : s.zeroCursor.err = s.err := rfl
@[simp] theorem zeroCursor_ops : s.zeroCursor.ops = s.ops := rfl
@[simp] theorem zeroCursor_res : s.zeroCursor.res = s.res := rfl
@[simp] theorem zeroCursor_capacity : s.zeroCursor.capacity = s.capacity := rfl
@[simp] theorem zeroCursor_cursor : s.zeroCursor.cursor = { lastMin := 0, nextIdx := 0 } := rfl
@[simp] theorem zeroCursor_dt : s.zeroCursor.dt = s.dt := rfl
@[simp] theorem zeroCursor_hw : s.zeroCursor.hw = s.hw := rfl
@[simp] theorem zeroCursor_dbuf : s.zeroCursor.dbuf = s.dbuf := rfl
@[simp] theorem zeroCursor_bte : s.zeroCursor.bte = s.bte := rfl
@[simp] theorem zeroCursor_seq : s.zeroCursor.seq = s.seq := rfl
@[simp] theorem zeroCursor_tx : s.zeroCursor.tx = s.tx := rfl
@[simp] theorem zeroCursor_env : s.zeroCursor.env = s.env := rfl

/-! ### endCount -/

@[simp] theorem endCount_cfg (n : Half) : (s.endCount n).cfg = s.cfg := rfl
@[simp] theorem endCount_cmd (n : Half) : (s.endCount n).cmd = s.cmd := rfl
@[simp] theorem endCount_busy (n : Half) : (s.endCount n).busy = false := rfl
@[simp] theorem endCount_fail (n : Half) : (s.endCount n).fail = false := rfl
@[simp] theorem endCount_tickp (n : Half) : (s.endCount n).tickp = s.tickp := rfl
@[simp] theorem endCount_ovr (n : Half) : (s.endCount n).ovr = s.ovr := rfl
@[simp] theorem endCount_cfgok (n : Half) : (s.endCount n).cfgok = s.cfgok := rfl
@[simp] theorem endCount_src (n : Half) : (s.endCount n).src = s.src := rfl
@[simp] theorem endCount_tickEn (n : Half) : (s.endCount n).tickEn = s.tickEn := rfl
@[simp] theorem endCount_halt (n : Half) : (s.endCount n).halt = s.halt := rfl
@[simp] theorem endCount_err (n : Half) : (s.endCount n).err = s.err := rfl
@[simp] theorem endCount_ops (n : Half) : (s.endCount n).ops = s.ops := rfl
@[simp] theorem endCount_res (n : Half) : (s.endCount n).res = n := rfl
@[simp] theorem endCount_capacity (n : Half) : (s.endCount n).capacity = s.capacity := rfl
@[simp] theorem endCount_cursor (n : Half) : (s.endCount n).cursor = s.cursor := rfl
@[simp] theorem endCount_dt (n : Half) : (s.endCount n).dt = s.dt := rfl
@[simp] theorem endCount_hw (n : Half) : (s.endCount n).hw = s.hw := rfl
@[simp] theorem endCount_dbuf (n : Half) : (s.endCount n).dbuf = s.dbuf := rfl
@[simp] theorem endCount_bte (n : Half) : (s.endCount n).bte = { s.bte with pstate := .idle } := rfl
@[simp] theorem endCount_seq (n : Half) : (s.endCount n).seq = { s.seq with task := .idle } := rfl
@[simp] theorem endCount_tx (n : Half) : (s.endCount n).tx = s.tx := rfl
@[simp] theorem endCount_env (n : Half) : (s.endCount n).env = s.env := rfl

/-! ### endPass -/

@[simp] theorem endPass_cfg : s.endPass.cfg = s.cfg := rfl
@[simp] theorem endPass_cmd : s.endPass.cmd = s.cmd := rfl
@[simp] theorem endPass_busy : s.endPass.busy = false := rfl
@[simp] theorem endPass_fail : s.endPass.fail = false := rfl
@[simp] theorem endPass_tickp : s.endPass.tickp = false := rfl
@[simp] theorem endPass_ovr : s.endPass.ovr = s.ovr := rfl
@[simp] theorem endPass_cfgok : s.endPass.cfgok = s.cfgok := rfl
@[simp] theorem endPass_src : s.endPass.src = s.src := rfl
@[simp] theorem endPass_tickEn : s.endPass.tickEn = s.tickEn := rfl
@[simp] theorem endPass_halt : s.endPass.halt = s.halt := rfl
@[simp] theorem endPass_err : s.endPass.err = s.err := rfl
@[simp] theorem endPass_ops : s.endPass.ops = s.ops := rfl
@[simp] theorem endPass_res : s.endPass.res = s.res := rfl
@[simp] theorem endPass_capacity : s.endPass.capacity = s.capacity := rfl
@[simp] theorem endPass_cursor : s.endPass.cursor = { s.cursor with lastMin := s.seq.cur } := rfl
@[simp] theorem endPass_dt : s.endPass.dt = s.dt := rfl
@[simp] theorem endPass_hw : s.endPass.hw = s.hw := rfl
@[simp] theorem endPass_dbuf : s.endPass.dbuf = s.dbuf := rfl
@[simp] theorem endPass_bte : s.endPass.bte = { s.bte with pstate := .idle } := rfl
@[simp] theorem endPass_seq : s.endPass.seq = { s.seq with task := .idle } := rfl
@[simp] theorem endPass_tx : s.endPass.tx = s.tx := rfl
@[simp] theorem endPass_env : s.endPass.env = s.env := rfl

end Sys2Proof.Machine
end

