-- ==== Sys2Proof/Laws/Engine.lean ====
section
/-! SUPPORT. What the bus transaction engine does with the answers of a responsive bus: one lemma per protocol state, and
the whole Read and the whole Write as one step each (`run_readTrace`, `run_writeTrace`), which the statements about
commands cite. -/

namespace Sys2Proof.Machine

/-! ### Running -/

theorem withInputs_withInputs (s : State) (a b : List Instant) : (s.withInputs a).withInputs b = s.withInputs b := rfl

theorem withInputs_self (s : State) : s.withInputs s.env.inputs = s := rfl

/-- What is ahead of a step: the listed instants, or, where they are used up, the cycle. -/
theorem upcoming_cases (e : Env) :
    (e.inputs = [] ∧ e.upcoming = e.cycle) ∨ (e.inputs ≠ [] ∧ e.upcoming = e.inputs) := by
  cases h : e.inputs <;> simp [Env.upcoming, h]

@[simp] theorem ahead_inputs (s : State) : s.ahead.env.inputs = s.env.upcoming := rfl

@[simp] theorem ahead_upcoming (s : State) : s.ahead.env.upcoming = s.env.upcoming := by
  cases h : s.env.inputs <;> cases hc : s.env.cycle <;> simp [Env.upcoming, State.ahead, h, hc]

/-- A next round of the cycle may as well be listed: the step is the same, and a statement about a step need only look at
the listed instants. -/
theorem step_ahead (s : State) : step s.ahead = step s := by
  rcases upcoming_cases s.env with ⟨h, hc⟩ | ⟨_, hu⟩
  · cases hl : s.env.cycle with
    | nil => rw [State.ahead, hc, hl, ← h, withInputs_self]
    | cons i rest =>
      simp only [step, fetchCommand, nextInstant, ahead_upcoming]
      simp only [hc, hl]
      rfl
  · rw [State.ahead, hu, withInputs_self]

@[simp] theorem latchTick_false (s : State) : s.latchTick false = s := by
  simp [State.latchTick]

/-- A run reads its trace from its argument, not from the state. -/
theorem run_withInputs (l a : List Instant) (s : State) : run l (s.withInputs a) = run l s := by
  cases l <;> rfl

theorem run_cons {i : Instant} {rest : List Instant} {s : State} (h : s.busy = true) :
    run (i :: rest) s = run rest (busyInstant i (s.withInputs rest)) := by
  simp [run, h]

/-- A run that is over leaves the rest of the trace. -/
theorem run_idle {l : List Instant} {s : State} (h : s.busy = false) : run l s = s.withInputs l := by
  cases l <;> simp [run, h]

theorem runSeq_idle {s : State} (h : s.busy = false) : s.runSeq = s := by
  rw [State.runSeq, run_idle h]; rfl

/-- An idle and not halted block accepts. -/
theorem accept_ready {s : State} (hb : s.busy = false) (hh : s.halt = false) (c : Byte) (body : State → State) :
    accept c body s = (body (s.commandStart c)).runSeq := by
  simp [accept, hb, hh]

/-- A busy or halted block discards (R31, R53). -/
theorem accept_discard {s : State} (h : s.busy = true ∨ s.halt = true) (c : Byte) (body : State → State) :
    accept c body s = s.discard := by
  rcases h with h | h <;> simp [accept, h]

/-! ### One instant -/

theorem seqStep_request {i : Instant} {s : State} (ht : s.seq.task.transmitting = false) :
    seqStep i s =
      match s.request with
      | none => s.enter s.bte.pstate
      | some .stop => takeStop s
      | some p =>
        match i.bus with
        | some (st, d) => takeStatus p st d s
        | none => s := by
  unfold seqStep
  cases hk : s.seq.task <;> simp [Task.transmitting, hk] at ht <;> rfl

/-- An answered primitive. -/
theorem busyInstant_answer {s : State} {p : Prim} (hr : s.request = some p) (hp : p ≠ .stop)
    (ht : s.seq.task.transmitting = false) (st d : Byte) :
    busyInstant (.answer st d) s = takeStatus p st d s := by
  simp only [busyInstant, Instant.answer, Instant.onHost, latchTick_false, Bool.false_eq_true, if_false]
  rw [seqStep_request ht, hr]
  cases p <;> first | rfl | exact absurd rfl hp

/-- The instant of a STOP. -/
theorem busyInstant_stop {s : State} (hr : s.request = some .stop) (ht : s.seq.task.transmitting = false) :
    busyInstant Instant.quiet s = takeStop s := by
  simp only [busyInstant, Instant.quiet, Instant.onHost, latchTick_false, Bool.false_eq_true, if_false]
  rw [seqStep_request ht, hr]

/-! ### One accepted status per protocol state -/

/-- The state after a primitive that went on to protocol state `p`, the engine's other fields as `b` says. -/
def State.went (s : State) (e : PrimEvent) (b : Bte) : State :=
  { s with bte := b, env := { s.env with prims := s.env.prims ++ [e] } }

theorem went_withInputs (s : State) (e : PrimEvent) (b : Bte) (l : List Instant) :
    (s.withInputs l).went e b = (s.went e b).withInputs l := rfl

theorem takeStatus_start {s : State} (h : s.bte.pstate = .start) {st : Byte} (hs : isStart st = true) (d : Byte) :
    takeStatus .start st d s =
      s.went (.sent .start st) { s.bte with bstat := st, owned := true, pstate := .slaw } := by
  simp [takeStatus, bteStatus, verdict, State.observe, State.enter, h, hs, Prim.returns, PrimEvent.sent, State.went]

theorem takeStatus_slawAck {s : State} (h : s.bte.pstate = .slaw) (p : Prim) (d : Byte)
    (hd : p.returns d = none) :
    takeStatus p stSlawAck d s =
      s.went (.sent p stSlawAck)
        { s.bte with bstat := stSlawAck, pstate := if s.bte.xaw = 2 then .addrH else .addrL } := by
  by_cases hx : s.bte.xaw = 2#2 <;>
    simp [takeStatus, bteStatus, verdict, State.observe, State.enter, h, hd, PrimEvent.sent, State.went, hx]

theorem takeStatus_slawNack {s : State} (h : s.bte.pstate = .slaw) (p : Prim) (d : Byte) (hd : p.returns d = none)
    (hi : s.bte.iter + 1 < s.cfg.maxIter) :
    takeStatus p stSlawNack d s =
      s.went (.sent p stSlawNack)
        { s.bte with bstat := stSlawNack, iter := s.bte.iter + 1, pstate := .start, bidx := 0 } := by
  have hn : ¬ s.cfg.maxIter ≤ s.bte.iter + 1#8 := BitVec.not_le.2 hi
  simp [takeStatus, bteStatus, verdict, State.observe, State.restart, h, hd, PrimEvent.sent, State.went, hn]

theorem takeStatus_addrH {s : State} (h : s.bte.pstate = .addrH) (b d : Byte) :
    takeStatus (.send b) stTxAck d s =
      s.went (.sent (.send b) stTxAck) { s.bte with bstat := stTxAck, pstate := .addrL } := by
  simp [takeStatus, bteStatus, verdict, State.observe, State.enter, h, Prim.returns, PrimEvent.sent, State.went]

theorem takeStatus_addrL_rd {s : State} (h : s.bte.pstate = .addrL) (hk : s.bte.xkind = .rd) (b d : Byte) :
    takeStatus (.send b) stTxAck d s =
      s.went (.sent (.send b) stTxAck) { s.bte with bstat := stTxAck, pstate := .rstart } := by
  simp [takeStatus, bteStatus, verdict, State.observe, State.enter, h, hk, Prim.returns, PrimEvent.sent, State.went]

theorem takeStatus_addrL_wr {s : State} (h : s.bte.pstate = .addrL) (hk : s.bte.xkind = .wr) (b d : Byte) :
    takeStatus (.send b) stTxAck d s =
      s.went (.sent (.send b) stTxAck)
        { s.bte with bstat := stTxAck, pstate := if s.bte.atEnd then .stopOk else .wdata } := by
  by_cases he : s.bte.atEnd = true
  · simp [takeStatus, bteStatus, verdict, State.observe, State.enter, h, hk, Prim.returns, PrimEvent.sent, State.went,
      Bte.atEnd] at he ⊢
    simp [he]
  · simp [takeStatus, bteStatus, verdict, State.observe, State.enter, h, hk, Prim.returns, PrimEvent.sent, State.went,
      Bte.atEnd] at he ⊢
    simp [he]

theorem takeStatus_rstart {s : State} (h : s.bte.pstate = .rstart) {st : Byte} (hs : isStart st = true) (d : Byte) :
    takeStatus .start st d s =
      s.went (.sent .start st) { s.bte with bstat := st, owned := true, pstate := .slar } := by
  simp [takeStatus, bteStatus, verdict, State.observe, State.enter, h, hs, Prim.returns, PrimEvent.sent, State.went]

theorem takeStatus_slarAck {s : State} (h : s.bte.pstate = .slar) (b d : Byte) :
    takeStatus (.send b) stSlarAck d s =
      s.went (.sent (.send b) stSlarAck)
        { s.bte with bstat := stSlarAck, pstate := if s.bte.atEnd then .stopOk else .rdata } := by
  by_cases he : s.bte.atEnd = true
  · simp [takeStatus, bteStatus, verdict, State.observe, State.enter, h, Prim.returns, PrimEvent.sent, State.went,
      Bte.atEnd] at he ⊢
    simp [he]
  · simp [takeStatus, bteStatus, verdict, State.observe, State.enter, h, Prim.returns, PrimEvent.sent, State.went,
      Bte.atEnd] at he ⊢
    simp [he]

theorem takeStatus_wdata {s : State} (h : s.bte.pstate = .wdata) (b d : Byte) :
    takeStatus (.send b) stTxAck d s =
      s.went (.sent (.send b) stTxAck)
        { s.bte with bstat := stTxAck, bidx := s.bte.bidx + 1,
                     pstate := if s.bte.bidx + 1 = s.bte.xlen.setWidth 9 then .stopOk else .wdata } := by
  by_cases he : s.bte.bidx + 1#9 = s.bte.xlen.setWidth 9 <;>
    simp [takeStatus, bteStatus, verdict, State.observe, State.enter, h, Prim.returns, PrimEvent.sent, State.went,
      Bte.atEnd, he]

theorem takeStatus_rdata {s : State} (h : s.bte.pstate = .rdata) (p : Prim) (d : Byte) :
    takeStatus p s.bte.expected d s =
      { s with
        dbuf := Memory.write s.dbuf s.bte.bufIndex.toNat d
        bte := { s.bte with bstat := s.bte.expected, bidx := s.bte.bidx + 1,
                            pstate := if s.bte.bidx + 1 = s.bte.xlen.setWidth 9 then .stopOk else .rdata }
        env := { s.env with prims := s.env.prims ++ [⟨p, some s.bte.expected, p.returns d⟩] } } := by
  by_cases he : s.bte.bidx + 1#9 = s.bte.xlen.setWidth 9 <;>
    simp [takeStatus, bteStatus, verdict, State.observe, State.enter, h, Bte.expected, Bte.lastByte, Bte.atEnd,
      Bte.bufIndex, State.dbufSet, he]

/-! ### The data phases -/

/-- The engine after a data phase that went through, the STOP still due. -/
def State.dataIn (s : State) (ds : List Byte) : State :=
  { s with
    dbuf := Memory.writeBytes s.bte.bidx.toNat ds s.dbuf
    bte := { s.bte with bstat := stRxNack, bidx := s.bte.xlen.setWidth 9, pstate := .stopOk }
    env := { s.env with prims := s.env.prims ++ dataPrims ds } }

theorem bidx_succ {b : BitVec 9} {n : Byte} (h : b.toNat < n.toNat) : (b + 1#9).toNat = b.toNat + 1 := by
  have := n.isLt
  rw [BitVec.toNat_add]; simp; omega

theorem bidx_end_iff {b : BitVec 9} {n : Byte} : b = n.setWidth 9 ↔ b.toNat = n.toNat := by
  have := n.isLt
  rw [← BitVec.toNat_inj, BitVec.toNat_setWidth, Nat.mod_eq_of_lt (by omega)]

theorem request_rdata {s : State} (h : s.bte.pstate = .rdata) (hl : s.bte.bidx.toNat < s.bte.xlen.toNat) :
    s.request = if s.bte.lastByte then some .recvNack else some .recvAck := by
  have : s.bte.atEnd = false := by
    simp only [Bte.atEnd, beq_eq_false_iff_ne, ne_eq, bidx_end_iff]; omega
  simp [State.request, h, this]

/-- The receives of a Read (R146, R147): every byte stored, in order, from `DBUF[BIDX]` on. -/
theorem run_dataAnswers (ds : List Byte) (hne : ds ≠ []) (rest : List Instant) (s : State) (hb : s.busy = true)
    (ht : s.seq.task.transmitting = false) (hp : s.bte.pstate = .rdata)
    (hl : s.bte.bidx.toNat + ds.length = s.bte.xlen.toNat) :
    run (dataAnswers ds ++ rest) s = run rest (s.dataIn ds) := by
  induction ds generalizing s with
  | nil => exact absurd rfl hne
  | cons d ds ih =>
    have hxl := s.bte.xlen.isLt
    have hlt : s.bte.bidx.toNat < s.bte.xlen.toNat := by simp only [List.length_cons] at hl; omega
    have hsucc := bidx_succ hlt
    have hidx : s.bte.bufIndex.toNat = s.bte.bidx.toNat := by
      rw [Bte.bufIndex, BitVec.toNat_setWidth]; exact Nat.mod_eq_of_lt (by omega)
    have hreq := request_rdata hp hlt
    cases ds with
    | nil =>
      have hend : s.bte.bidx + 1#9 = s.bte.xlen.setWidth 9 := by
        rw [bidx_end_iff, hsucc]; simpa using hl
      have hlast : s.bte.lastByte = true := by simpa [Bte.lastByte] using hend
      rw [hlast, if_pos rfl] at hreq
      have hexp : s.bte.expected = stRxNack := by simp [Bte.expected, hlast]
      rw [dataAnswers, List.cons_append, List.nil_append, run_cons hb,
        busyInstant_answer (s := s.withInputs rest) hreq (by decide) ht, ← hexp,
        show s.bte.expected = (s.withInputs rest).bte.expected from rfl, takeStatus_rdata (by exact hp)]
      rw [show (s.withInputs rest).bte.expected = stRxNack from hexp]
      rw [← run_withInputs rest rest (s.dataIn [d])]
      congr 1
      simp [State.dataIn, State.withInputs, dataPrims, Prim.returns, Memory.writeBytes, hidx, hend]
    | cons c ds =>
      have hne' : ¬ s.bte.bidx + 1#9 = s.bte.xlen.setWidth 9 := by
        rw [bidx_end_iff, hsucc]; simp only [List.length_cons] at hl; omega
      have hlast : s.bte.lastByte = false := by simpa [Bte.lastByte] using hne'
      rw [hlast] at hreq
      have hexp : s.bte.expected = stRxAck := by simp [Bte.expected, hlast]
      rw [dataAnswers, List.cons_append, run_cons hb,
        busyInstant_answer (s := s.withInputs (dataAnswers (c :: ds) ++ rest)) (by exact hreq) (by decide) ht, ← hexp,
        show s.bte.expected = (s.withInputs (dataAnswers (c :: ds) ++ rest)).bte.expected from rfl,
        takeStatus_rdata (by exact hp)]
      rw [show (s.withInputs (dataAnswers (c :: ds) ++ rest)).bte.expected = stRxAck from hexp]
      rw [ih (by simp) _ ?_ ?_ ?_ ?_]
      · rw [← run_withInputs rest rest (State.dataIn _ _), ← run_withInputs rest rest (s.dataIn _)]
        congr 1
        simp [State.dataIn, State.withInputs, dataPrims, Prim.returns, Memory.writeBytes, hidx, hsucc]
      · exact hb
      · exact ht
      · simp [hne']
      · simp only [withInputs_bte]
        rw [show (1 : BitVec 9) = 1#9 from rfl, hsucc]
        simp only [List.length_cons] at hl ⊢; omega

/-- The engine after the data bytes of a Write were acknowledged, the STOP still due. -/
def State.dataOut (s : State) (n : Nat) : State :=
  { s with
    bte := { s.bte with bstat := stTxAck, bidx := s.bte.xlen.setWidth 9, pstate := .stopOk }
    env := { s.env with
      prims := s.env.prims ++
        (List.range' s.bte.bidx.toNat n).map (fun k => .sent (.send (s.dbufGet (BitVec.ofNat 8 k))) stTxAck) } }

theorem request_wdata {s : State} (h : s.bte.pstate = .wdata) (hl : s.bte.bidx.toNat < s.bte.xlen.toNat) :
    s.request = some (.send (s.dbufGet (BitVec.ofNat 8 s.bte.bidx.toNat))) := by
  have : s.bte.atEnd = false := by
    simp only [Bte.atEnd, beq_eq_false_iff_ne, ne_eq, bidx_end_iff]; omega
  have hi : s.bte.bufIndex = BitVec.ofNat 8 s.bte.bidx.toNat := by
    rw [← BitVec.toNat_inj]; simp [Bte.bufIndex]
  simp [State.request, h, this, hi]

/-- The data bytes of a Write (R149): `DBUF[BIDX]` on, in order. -/
theorem run_writeAnswers (n : Nat) (rest : List Instant) (s : State) (hb : s.busy = true)
    (ht : s.seq.task.transmitting = false) (hp : s.bte.pstate = .wdata)
    (hl : s.bte.bidx.toNat + (n + 1) = s.bte.xlen.toNat) :
    run (List.replicate (n + 1) (.answer stTxAck 0) ++ rest) s = run rest (s.dataOut (n + 1)) := by
  induction n generalizing s with
  | zero =>
    have hlt : s.bte.bidx.toNat < s.bte.xlen.toNat := by omega
    have hend : s.bte.bidx + 1#9 = s.bte.xlen.setWidth 9 := by
      rw [bidx_end_iff, bidx_succ hlt]; omega
    rw [List.replicate_succ, List.replicate_zero, List.cons_append, List.nil_append, run_cons hb,
      busyInstant_answer (s := s.withInputs rest) (by exact request_wdata hp hlt) (by simp) ht,
      takeStatus_wdata (by exact hp), ← run_withInputs rest rest (s.dataOut 1)]
    congr 1
    simp [State.dataOut, State.went, State.withInputs, hend, List.range']
    rfl
  | succ n ih =>
    have hxl := s.bte.xlen.isLt
    have hlt : s.bte.bidx.toNat < s.bte.xlen.toNat := by omega
    have hsucc := bidx_succ hlt
    have hne : ¬ s.bte.bidx + 1#9 = s.bte.xlen.setWidth 9 := by
      rw [bidx_end_iff, hsucc]; omega
    rw [List.replicate_succ, List.cons_append, run_cons hb,
      busyInstant_answer (s := s.withInputs (List.replicate (n + 1) (Instant.answer stTxAck 0) ++ rest))
        (by exact request_wdata hp hlt) (by simp) ht,
      takeStatus_wdata (by exact hp)]
    rw [ih _ ?_ ?_ ?_ ?_]
    · rw [← run_withInputs rest rest (State.dataOut _ _), ← run_withInputs rest rest (s.dataOut _)]
      congr 1
      simp only [State.dataOut, State.went, State.withInputs, List.append_assoc]
      rw [show (1 : BitVec 9) = 1#9 from rfl, hsucc, List.range'_succ]
      rfl
    · exact hb
    · exact ht
    · simp [State.went, hne]
    · simp only [State.went, withInputs_bte]
      rw [show (1 : BitVec 9) = 1#9 from rfl, hsucc]
      omega

/-! ### The whole transaction -/

/-- One answered primitive of a run, where the engine goes on. -/
theorem run_went {s : State} {p : Prim} {st d : Byte} {rest : List Instant} {e : PrimEvent} {b : Bte}
    (hb : s.busy = true) (ht : s.seq.task.transmitting = false) (hr : s.request = some p) (hp : p ≠ .stop)
    (hw : takeStatus p st d (s.withInputs rest) = (s.withInputs rest).went e b) :
    run (.answer st d :: rest) s = run rest (s.went e b) := by
  rw [run_cons hb, busyInstant_answer (by exact hr) hp (by exact ht), hw, went_withInputs, run_withInputs]

@[simp] theorem went_busy (s : State) (e : PrimEvent) (b : Bte) : (s.went e b).busy = s.busy := rfl
@[simp] theorem went_seq (s : State) (e : PrimEvent) (b : Bte) : (s.went e b).seq = s.seq := rfl
@[simp] theorem went_bte (s : State) (e : PrimEvent) (b : Bte) : (s.went e b).bte = b := rfl
@[simp] theorem went_dbuf (s : State) (e : PrimEvent) (b : Bte) : (s.went e b).dbuf = s.dbuf := rfl
@[simp] theorem went_prims (s : State) (e : PrimEvent) (b : Bte) : (s.went e b).env.prims = s.env.prims ++ [e] := rfl

/-- A transaction that stands at `P_START` with nothing transferred yet: a fresh one or a restarted one (R134). -/
structure AtStart (s : State) (kind : XKind) : Prop where
  busy : s.busy = true
  task : s.seq.task.transmitting = false
  pstate : s.bte.pstate = .start
  bidx : s.bte.bidx = 0
  kind : s.bte.xkind = kind
  aw : s.bte.xaw = 1 ∨ s.bte.xaw = 2

/-- The selection and the address bytes acknowledged, up to the last address byte's request. -/
theorem run_select {s : State} {kind : XKind} (h : AtStart s kind) {st : Byte} (hs : isStart st = true)
    (rest : List Instant) :
    run ([.answer st 0, .answer stSlawAck 0] ++ addrAnswers s.bte.xaw ++ rest) s =
      run (.answer stTxAck 0 :: rest)
        { s with
          bte := { s.bte with bstat := if s.bte.xaw = 2 then stTxAck else stSlawAck, owned := true, pstate := .addrL }
          env := { s.env with prims := s.env.prims ++
            [.sent .start st, .sent (.send (s.bte.xdev ++ 0#1)) stSlawAck] ++
              (if s.bte.xaw = 2 then [.sent (.send (s.bte.xoff.extractLsb' 8 8)) stTxAck] else []) } } := by
  have hb := h.busy
  have ht := h.task
  rw [List.append_assoc, List.cons_append, List.cons_append, List.nil_append,
    run_went hb ht (p := .start) (by simp [State.request, h.pstate]) (by decide)
      (takeStatus_start (by exact h.pstate) hs 0),
    run_went (by exact hb) (by exact ht) (p := .send (s.bte.xdev ++ 0#1)) (by simp [State.request, selectByte])
      (by simp) (takeStatus_slawAck (by simp) _ _ rfl)]
  rcases h.aw with ha | ha
  · have hn : ¬ s.bte.xaw = 2#2 := by rw [ha]; decide
    simp [addrAnswers, State.went, hn]
  · have hn : s.bte.xaw = 2#2 := ha
    simp only [addrAnswers, ha]
    rw [if_pos (by decide), List.cons_append, List.cons_append, List.nil_append,
      run_went (by exact hb) (by exact ht) (p := .send (s.bte.xoff.extractLsb' 8 8)) (by simp [State.request, hn])
        (by simp) (takeStatus_addrH (by simp [hn]) _ _)]
    simp [State.went, hn]

/-- A Read over, as its operation finds it: `DBUF` filled, `COUNT` set, `PSTATE` idle (R150, R162). -/
def State.readOver (s : State) (st st2 : Byte) (ds : List Byte) : State :=
  { s with
    dbuf := Memory.writeBytes 0 ds s.dbuf
    bte := s.bte.done .rd s.bte.xdev s.bte.xaw s.bte.xoff s.bte.xlen s.bte.iter
    env := { s.env with prims := s.env.prims ++ readPrims st st2 s.bte.xdev s.bte.xaw s.bte.xoff ds } }

/-- A Write over, as its operation finds it (R150, R162). -/
def State.writeOver (s : State) (st : Byte) : State :=
  { s with
    bte := s.bte.done .wr s.bte.xdev s.bte.xaw s.bte.xoff s.bte.xlen s.bte.iter
    env :=
      { s.env with
        prims := s.env.prims ++ writePrims st s.bte.xdev s.bte.xaw s.bte.xoff (s.dbufTake s.bte.xlen.toNat) } }

/-- The STOP of a transaction that succeeds, in a run. -/
theorem run_stopOk {s : State} (hb : s.busy = true) (ht : s.seq.task.transmitting = false)
    (h : s.bte.pstate = .stopOk) (rest : List Instant) :
    run (Instant.quiet :: rest) s =
      run rest
        (finish .ok
          { s.withInputs rest with
            bte := { s.bte with count := s.bte.xlen, pstate := .idle }
            env := { s.env with inputs := rest, prims := s.env.prims ++ [.stopped] } }) := by
  rw [run_cons hb, busyInstant_stop (by simp [State.request, h]) (by exact ht)]
  simp [takeStop, bteStop, h, PrimEvent.stopped, State.withInputs]

/-- The STOP of a transaction that fails, in a run (R151). -/
theorem run_stopFail {s : State} (hb : s.busy = true) (ht : s.seq.task.transmitting = false)
    (h : s.bte.pstate = .stopFail) (rest : List Instant) :
    run (Instant.quiet :: rest) s =
      run rest
        (finish .failed
          { s.withInputs rest with
            err := s.bte.xcode.code
            bte := { s.bte with count := 0, pstate := .idle }
            env := { s.env with inputs := rest, prims := s.env.prims ++ [.stopped] } }) := by
  rw [run_cons hb, busyInstant_stop (by simp [State.request, h]) (by exact ht)]
  simp [takeStop, bteStop, h, PrimEvent.stopped, State.withInputs, State.raise]

/-- A whole Read answered by a responsive bus (R71, R146, R150). -/
theorem run_readTrace {s : State} (h : AtStart s .rd) {st st2 : Byte} (hs : isStart st = true)
    (hs2 : isStart st2 = true) (ds : List Byte) (hl : ds.length = s.bte.xlen.toNat) (rest : List Instant) :
    run (readTrace st st2 s.bte.xaw ds ++ rest) s = run rest (finish .ok ((s.readOver st st2 ds).withInputs rest)) := by
  have hb := h.busy
  have ht := h.task
  have hn : s.bte.bidx = 0#9 := h.bidx
  have hk : s.bte.xkind = .rd := h.kind
  rw [readTrace, List.append_assoc, List.append_assoc, List.append_assoc, run_select h hs,
    run_went (by exact hb) (by exact ht) (p := .send (s.bte.xoff.extractLsb' 0 8)) (by simp [State.request])
      (by simp) (takeStatus_addrL_rd (by simp) (by simpa using hk) _ _),
    List.cons_append, List.cons_append, List.nil_append,
    run_went (by exact hb) (by exact ht) (p := .start) (by simp [State.request]) (by simp)
      (takeStatus_rstart (by simp) hs2 _),
    run_went (by exact hb) (by exact ht) (p := .send (s.bte.xdev ++ 1#1)) (by simp [State.request, selectByte])
      (by simp) (takeStatus_slarAck (by simp) _ _)]
  by_cases hds : ds = []
  · subst hds
    have hx : s.bte.xlen = 0#8 := by
      rw [← BitVec.toNat_inj, ← hl]; rfl
    simp only [dataAnswers, List.nil_append, List.cons_append]
    rw [run_stopOk (by exact hb) (by exact ht) (by simp [Bte.atEnd, hn, hx])]
    simp [State.went, State.withInputs, State.readOver, Bte.done, Memory.writeBytes, readPrims, selectPrims,
      dataPrims, hx, hn, hk]
  · have hx : ¬ s.bte.xlen = 0#8 := by
      intro hx; rw [hx] at hl; exact hds (List.length_eq_zero_iff.1 hl)
    have he : ¬ 0#9 = s.bte.xlen.setWidth 9 := by
      rw [bidx_end_iff]; intro h0; exact hds (List.length_eq_zero_iff.1 (by rw [hl, ← h0]; rfl))
    rw [run_dataAnswers ds hds _ _ (by exact hb) (by exact ht) (by simp [Bte.atEnd, hn, he])
      (by simpa [hn] using hl), List.cons_append, List.nil_append,
      run_stopOk (by exact hb) (by exact ht) (by simp [State.dataIn])]
    simp [State.went, State.withInputs, State.readOver, Bte.done, readPrims, selectPrims, State.dataIn, hx, hn, hk]

/-- A whole Write answered by a responsive bus (R71, R149, R150). -/
theorem run_writeTrace {s : State} (h : AtStart s .wr) {st : Byte} (hs : isStart st = true) (rest : List Instant) :
    run (writeTrace st s.bte.xaw s.bte.xlen.toNat ++ rest) s =
      run rest (finish .ok ((s.writeOver st).withInputs rest)) := by
  have hb := h.busy
  have ht := h.task
  have hn : s.bte.bidx = 0#9 := h.bidx
  have hk : s.bte.xkind = .wr := h.kind
  rw [writeTrace, List.append_assoc, List.append_assoc, run_select h hs,
    run_went (by exact hb) (by exact ht) (p := .send (s.bte.xoff.extractLsb' 0 8)) (by simp [State.request])
      (by simp) (takeStatus_addrL_wr (by simp) (by simpa using hk) _ _)]
  obtain hm | ⟨m, hm⟩ : s.bte.xlen.toNat = 0 ∨ ∃ m, s.bte.xlen.toNat = m + 1 := by
    cases h0 : s.bte.xlen.toNat with
    | zero => exact .inl rfl
    | succ m => exact .inr ⟨m, rfl⟩
  · have hx : s.bte.xlen = 0#8 := by
      rw [← BitVec.toNat_inj, hm]; rfl
    rw [hm, List.replicate_zero, List.nil_append, List.cons_append, List.nil_append,
      run_stopOk (by exact hb) (by exact ht) (by simp [Bte.atEnd, hn, hx])]
    simp [State.went, State.withInputs, State.writeOver, Bte.done, writePrims, selectPrims, State.dbufTake, hx, hn, hk]
  · have hx : ¬ s.bte.xlen = 0#8 := by
      intro hx; rw [hx] at hm; simp at hm
    have he : ¬ 0#9 = s.bte.xlen.setWidth 9 := by
      rw [bidx_end_iff, hm]; simp
    rw [hm, run_writeAnswers m _ _ (by exact hb) (by exact ht) (by simp [Bte.atEnd, hn, he])
      (by simpa [hn] using hm.symm), List.cons_append, List.nil_append,
      run_stopOk (by exact hb) (by exact ht) (by simp [State.dataOut])]
    simp [State.went, State.withInputs, State.writeOver, Bte.done, writePrims, selectPrims, State.dataOut,
      State.dbufTake, hn, hk, hm, List.range_eq_range']
    rfl

/-! ### A transaction from its start -/

theorem atStart_startXfer {s : State} (hb : s.busy = true) (ht : s.seq.task.transmitting = false) {aw : BitVec 2}
    (ha : aw = 1 ∨ aw = 2) (kind : XKind) (dev : DevAddr) (off : Half) (n : Byte) :
    AtStart (s.startXfer kind dev aw off n) kind :=
  ⟨hb, ht, rfl, rfl, rfl, ha⟩

/-- `MemRead` answered by a responsive bus: what its operation finds (R160, R162). -/
theorem run_memRead {s : State} (hb : s.busy = true) (ht : s.seq.task.transmitting = false) {aw : BitVec 2}
    (ha : aw = 1 ∨ aw = 2) {st st2 : Byte} (hs : isStart st = true) (hs2 : isStart st2 = true) (dev : DevAddr) (off : Half)
    (n : Byte) (ds : List Byte)
    (hl : ds.length = n.toNat) (rest : List Instant) :
    run (readTrace st st2 aw ds ++ rest) (s.memRead dev aw off n) =
      run rest
        (finish .ok
          { s with
            dbuf := Memory.writeBytes 0 ds s.dbuf
            bte := s.bte.done .rd dev aw off n 0
            env := { s.env with inputs := rest, prims := s.env.prims ++ readPrims st st2 dev aw off ds } }) :=
  run_readTrace (atStart_startXfer hb ht ha .rd dev off n) hs hs2 ds hl rest

/-- `MemWrite` answered by a responsive bus: what its operation finds (R161, R162). -/
theorem run_memWrite {s : State} (hb : s.busy = true) (ht : s.seq.task.transmitting = false) {aw : BitVec 2}
    (ha : aw = 1 ∨ aw = 2) {st : Byte} (hs : isStart st = true) (dev : DevAddr) (off : Half) (n : Byte)
    (rest : List Instant) :
    run (writeTrace st aw n.toNat ++ rest) (s.memWrite dev aw off n) =
      run rest
        (finish .ok
          { s with
            bte := s.bte.done .wr dev aw off n 0
            env :=
              { s.env with
                inputs := rest, prims := s.env.prims ++ writePrims st dev aw off (s.dbufTake n.toNat) } }) :=
  run_writeTrace (atStart_startXfer hb ht ha .wr dev off n) hs rest

/-- The engine after passes refused at their selection, standing at `P_START` again. -/
def State.refusedPasses (s : State) (sts : List Byte) : State :=
  if sts = [] then s
  else
    { s with
      bte := { s.bte with bstat := stSlawNack, owned := true, iter := s.bte.iter + BitVec.ofNat 8 sts.length }
      env := { s.env with prims := s.env.prims ++ busyPrims s.bte.xdev sts } }

/-- One pass whose selection is refused, below the bound (R137, R139). -/
theorem run_refused {s : State} {kind : XKind} (h : AtStart s kind) (hi : s.bte.iter + 1 < s.cfg.maxIter) {st : Byte}
    (hs : isStart st = true) (rest : List Instant) :
    run (.answer st 0 :: .answer stSlawNack 0 :: rest) s = run rest (s.refusedPasses [st]) := by
  have hb := h.busy
  have ht := h.task
  have hp := h.pstate
  have hn : s.bte.bidx = 0#9 := h.bidx
  rw [run_went hb ht (p := .start) (by simp [State.request, hp]) (by decide)
      (takeStatus_start (by exact hp) hs 0),
    run_went (by exact hb) (by exact ht) (p := .send (s.bte.xdev ++ 0#1)) (by simp [State.request, selectByte])
      (by simp) (takeStatus_slawNack (by simp) _ _ rfl (by exact hi))]
  simp [State.went, State.refusedPasses, busyPrims, hp, hn]

/-- Passes whose selection is refused, below the bound (R137, R139). -/
theorem run_busyTrace (sts : List Byte) (hs : ∀ st ∈ sts, isStart st = true) {s : State} {kind : XKind}
    (h : AtStart s kind) (hi : s.bte.iter.toNat + sts.length < s.cfg.maxIter.toNat) (rest : List Instant) :
    run (busyTrace sts ++ rest) s = run rest (s.refusedPasses sts) := by
  induction sts generalizing s with
  | nil => rfl
  | cons st sts ih =>
    have hm := s.cfg.maxIter.isLt
    simp only [List.length_cons] at hi
    have hsum : (s.bte.iter + 1#8).toNat = s.bte.iter.toNat + 1 := by
      rw [BitVec.toNat_add]; simp; omega
    have hlt : s.bte.iter + 1#8 < s.cfg.maxIter := by
      rw [BitVec.lt_def, hsum]; omega
    rw [busyTrace, List.cons_append, List.cons_append, run_refused h hlt (hs st List.mem_cons_self),
      ih (fun x hx => hs x (List.mem_cons_of_mem _ hx))]
    · cases sts with
      | nil => rfl
      | cons st2 sts =>
        simp [State.refusedPasses, busyPrims, BitVec.add_assoc]
        congr 5
        rw [← BitVec.toNat_inj]; simp; omega
    · exact ⟨h.busy, h.task, h.pstate, h.bidx, h.kind, h.aw⟩
    · simp only [State.refusedPasses]
      simp [hsum]; omega

end Sys2Proof.Machine
end

