-- ==== Sys2Proof/Laws/Ops.lean ====
section
/-! SUPPORT. For each shared operation one lemma that says everything it can do; statements about commands cite these
instead of unfolding the operation. -/

namespace Sys2Proof.Machine

/-! ### A run -/

/-- What holds of the state a run begins with and is kept by every busy instant of its trace, and of the quiet instant at
its end, holds where the run ends. -/
theorem run_invariant {P : State → Prop} {Q : Instant → Prop} (hq : Q Instant.quiet)
    (hin : ∀ s ins, P s → P (s.withInputs ins)) (hstep : ∀ i s, Q i → s.busy = true → P s → P (busyInstant i s))
    (l : List Instant) (hl : ∀ i ∈ l, Q i) (s : State) (h : P s) : P (run l s) := by
  induction l generalizing s with
  | nil =>
    by_cases hb : s.busy = true
    · simpa [run, hb] using hstep _ _ hq (by exact hb) (hin s [] h)
    · simpa [run, hb] using hin s [] h
  | cons i rest ih =>
    by_cases hb : s.busy = true
    · rw [run, if_pos hb]
      exact ih (fun j hj => hl j (List.mem_cons_of_mem _ hj)) _
        (hstep _ _ (hl i List.mem_cons_self) (by exact hb) (hin s rest h))
    · rw [run, if_neg hb]
      exact hin s _ h

/-- A run ends with the block idle, or with the trace used up. -/
theorem run_done (l : List Instant) (s : State) : (run l s).busy = false ∨ (∃ t : State, t.busy = true ∧
    run l s = busyInstant Instant.quiet (t.withInputs [])) := by
  induction l generalizing s with
  | nil =>
    by_cases hb : s.busy = true
    · exact .inr ⟨s, hb, by simp [run, hb]⟩
    · exact .inl (by simp [run, hb])
  | cons i rest ih =>
    by_cases hb : s.busy = true
    · rw [run, if_pos hb]; exact ih _
    · exact .inl (by simp [run, hb])

/-! ### One instant -/

/-- An instant of a busy block: reset, or the host access, then one step of the sequencer, then the TICK edge. -/
theorem busyInstant_cases (i : Instant) (s : State) :
    (i.reset = true ∧ busyInstant i s = resetInstant i s) ∨
    (i.reset = false ∧ busyInstant i s = State.latchTick i.tick (seqStep i (i.onHost State.busyHost s))) := by
  cases h : i.reset <;> simp [busyInstant, h]

/-- A host access to a busy block (R53). -/
theorem busyHost_cases (h : HostAccess) (s : State) :
    (∃ a v, s.busyHost h = s.logRead a v) ∨ (∃ a, s.busyHost h = s.drawRead a) ∨ (∃ v, s.busyHost h = s.ctrlWrite v) ∨
      s.busyHost h = s.discard := by
  cases h with
  | read a =>
    by_cases ha : a = addrStatus ∨ a = addrCtrl
    · exact .inl ⟨a, s.readReg a, by simp only [State.busyHost, if_pos ha]⟩
    · exact .inr (.inl ⟨a, by simp only [State.busyHost, if_neg ha]⟩)
  | write a v =>
    by_cases ha : a = addrCtrl
    · exact .inr (.inr (.inl ⟨v, by simp only [State.busyHost, if_pos ha]⟩))
    · exact .inr (.inr (.inr (by simp only [State.busyHost, if_neg ha])))

/-- A step of the sequencer: it waits, or takes an acknowledgement, a data phase's end, a STOP, or a status. -/
theorem seqStep_cases (i : Instant) (s : State) :
    seqStep i s = s ∨
    (∃ more, s.seq.task = .dueTx more ∧ seqStep i s = s.txDone more) ∨
    (s.request = none ∧ seqStep i s = s.enter s.bte.pstate) ∨
    (s.request = some .stop ∧ seqStep i s = takeStop s) ∨
    (∃ p st d, s.request = some p ∧ p ≠ .stop ∧ i.bus = some (st, d) ∧ seqStep i s = takeStatus p st d s) := by
  unfold seqStep
  split
  · rename_i more ht
    split
    · exact .inr (.inl ⟨more, ht, rfl⟩)
    · exact .inl rfl
  · split
    · rename_i hr
      exact .inr (.inr (.inl ⟨hr, rfl⟩))
    · rename_i hr
      exact .inr (.inr (.inr (.inl ⟨hr, rfl⟩)))
    · rename_i p hr hp
      split
      · rename_i st d hb
        exact .inr (.inr (.inr (.inr ⟨p, st, d, hp, hr, hb, rfl⟩)))
      · exact .inl rfl

/-- A status taken by the engine: the transaction goes on, restarts, aborts, or ends without STOP (R132). -/
theorem bteStatus_cases (st d : Byte) (s : State) :
    (∃ p, bteStatus st d s = ((s.observe st d).enter p, none)) ∨
    bteStatus st d s = ((s.observe st d).restart, none) ∨
    (∃ c, bteStatus st d s = ((s.observe st d).abort c, none)) ∨
    (s.bte.owned = false ∧ bteStatus st d s = ((s.observe st d).exitNoStop, some .failed)) := by
  unfold bteStatus
  split
  · exact .inl ⟨_, rfl⟩
  · exact .inr (.inl rfl)
  · exact .inr (.inr (.inl ⟨_, rfl⟩))
  · cases ho : s.bte.owned
    · exact .inr (.inr (.inr ⟨rfl, by simp⟩))
    · exact .inr (.inr (.inl ⟨.notStart, by simp⟩))

/-- What an inspected status writes: nothing but `DBUF` and the engine (R132, R134, R137, R146, R149). -/
theorem observe_frame (st d : Byte) (s : State) :
    s.observe st d = { s with dbuf := (s.observe st d).dbuf, bte := (s.observe st d).bte } := by
  cases hp : s.bte.pstate <;> (simp only [State.observe, hp]; try split) <;> rfl

/-- `Continue(p)` writes `PSTATE` only. -/
theorem enter_frame (p : PState) (s : State) :
    s.enter p = { s with bte := { s.bte with pstate := (s.enter p).bte.pstate } } := by
  unfold State.enter; split <;> rfl

/-- The STOP: `COUNT`, `PSTATE`, and `ERR` where the transaction failed (R150, R151). -/
theorem bteStop_cases (s : State) :
    (s.bte.pstate = .stopOk ∧
      bteStop s = ({ s with bte := { s.bte with count := s.bte.xlen, pstate := .idle } }, .ok)) ∨
    (s.bte.pstate ≠ .stopOk ∧
      bteStop s =
        ({ s with err := s.bte.xcode.code, bte := { s.bte with count := 0, pstate := .idle } }, .failed)) := by
  cases h : s.bte.pstate <;> simp [bteStop, h, State.raise]

/-- What an operation does when its transaction fails, the engine left as `b` (R275 (3)): every operation at once. -/
theorem finish_failed (s : State) (e : Byte) (b : Bte) (ps : List PrimEvent) (rest : List Instant) (hb : s.busy = true)
    (hp : b.pstate = .idle) (hi : s.seq.task.scanning = true → s.cursor.nextIdx < s.capacity) :
    finish .failed { s with err := e, bte := b,
                            env := { s.env with inputs := rest, prims := s.env.prims ++ ps } } =
      s.brokeOff e b ps rest := by
  have hbp : { b with pstate := PState.idle } = b := by rw [← hp]
  cases ht : s.seq.task with
  | dueScan more =>
    have hlt : ¬ s.capacity ≤ s.cursor.nextIdx := BitVec.not_le.2 (hi (by rw [ht]; rfl))
    cases more with
    | false =>
      simp [finish, State.brokeOff, State.transferFailed, finishScan, recordResult, State.endScan, State.endPass,
        State.completePass, State.complete, ht, hbp]
    | true =>
      simp [finish, State.brokeOff, State.transferFailed, finishScan, recordResult, State.endScan, State.enterScan,
        State.fetchLast, State.readRecord, State.memRead, State.startXfer, Config.recSize, ht, hb, hlt]
      rfl
  | _ =>
    simp [finish, State.brokeOff, State.transferFailed, finishTransfer, finishGetTime, finishLoadCfg, finishRdRec,
      finishWrRec, finishCount, finishDueTime, recordResult, State.endCount, State.completePass, State.complete, ht, hb,
      hbp]

/-- The start of a tick run with a tick pending (R245). -/
theorem tickStart_checkDue {s : State} (h : s.tickp = true) : s.tickStart.checkDue .normal = s.tickBegun := by
  cases s; cases h; rfl

/-! ### Record operations -/

/-- `ReadRecord` of a slot that exists begins its transaction (R202). -/
theorem readRecord_inRange {s : State} {i : Half} (h : i < s.capacity) (out : State → State) :
    s.readRecord i out = s.memRead s.cfg.memDev s.memAw (recOffset i) 10 := by
  have hn : ¬ s.capacity ≤ i := BitVec.not_le.2 h
  simp [State.readRecord, hn, Config.recSize]

/-- `ReadRecord` of a slot that does not exist (R201). -/
theorem readRecord_outOfRange {s : State} {i : Half} (h : s.capacity ≤ i) (out : State → State) :
    s.readRecord i out = out { s with err := 6 } := by
  simp [State.readRecord, h, State.raise, FailCode.code]

/-- `WriteRecord` of a slot that exists (R203). -/
theorem writeRecord_inRange {s : State} {i : Half} (h : i < s.capacity) (out : State → State) :
    s.writeRecord i out = s.memWrite s.cfg.memDev s.memAw (recOffset i) s.writeLen := by
  have hn : ¬ s.capacity ≤ i := BitVec.not_le.2 h
  simp [State.writeRecord, hn]

/-- `WriteRecord` of a slot that does not exist (R201). -/
theorem writeRecord_outOfRange {s : State} {i : Half} (h : s.capacity ≤ i) (out : State → State) :
    s.writeRecord i out = out { s with err := 6 } := by
  simp [State.writeRecord, h, State.raise, FailCode.code]

/-- The result a record operation sees: a count other than 10 fails (R202). -/
theorem recordResult_cases (r : XferResult) (s : State) :
    (r = .ok ∧ s.bte.count = 10 ∧ recordResult r s = (s, .ok)) ∨
    (r = .ok ∧ s.bte.count ≠ 10 ∧ recordResult r s = ({ s with err := 5 }, .failed)) ∨
    (r = .failed ∧ recordResult r s = (s, .failed)) := by
  cases r with
  | failed => exact .inr (.inr ⟨rfl, rfl⟩)
  | ok =>
    by_cases h : s.bte.count = 10#8
    · exact .inl ⟨rfl, h, by simp [recordResult, Config.recSize, h]⟩
    · exact .inr (.inl ⟨rfl, h, by simp [recordResult, Config.recSize, h, State.raise, FailCode.code]⟩)

/-- The head of CNTVALID's loop (R204). -/
theorem countNext_cases (s : State) :
    (s.seq.cidx < s.capacity ∧ s.countNext = s.memRead s.cfg.memDev s.memAw (recOffset s.seq.cidx) 10) ∨
    (¬ s.seq.cidx < s.capacity ∧ s.countNext = s.endCount s.seq.cidx) := by
  by_cases h : s.seq.cidx < s.capacity
  · exact .inl ⟨h, by rw [State.countNext, if_pos h, readRecord_inRange h]⟩
  · exact .inr ⟨h, by rw [State.countNext, if_neg h]⟩

/-! ### The scan -/

/-- Where a scan goes on after a record: the four ways of R232 to R237. -/
theorem scanRecord_cases (more : Bool) (s : State) :
    (s.recValid = false ∧ s.scanRecord more = s.scanInvalid more) ∨
    (s.recValid = true ∧ s.inWindow = false ∧ s.scanRecord more = s.endScan more) ∨
    (s.recValid = true ∧ s.inWindow = true ∧ s.fires = true ∧ s.seq.mode = .normal ∧
      s.scanRecord more = s.transmit more) ∨
    (s.recValid = true ∧ s.inWindow = true ∧ (s.fires = false ∨ s.seq.mode = .init) ∧
      s.scanRecord more = s.advance more) := by
  unfold State.scanRecord
  cases s.recValid <;> cases s.inWindow <;> cases s.fires <;> cases s.seq.mode <;> simp

/-- An invalid record under the cursor (R232). -/
theorem scanInvalid_cases (more : Bool) (s : State) :
    (s.cursor.nextIdx = 0 ∧ s.scanInvalid more = s.endScan more) ∨
    (s.cursor.nextIdx ≠ 0 ∧ s.seq.sstart = 0 ∧
      s.scanInvalid more = State.endScan more { s with cursor := { s.cursor with nextIdx := 0 } }) ∨
    (s.cursor.nextIdx ≠ 0 ∧ s.seq.sstart ≠ 0 ∧
      s.scanInvalid more = State.fetch more { s with cursor := { s.cursor with nextIdx := 0 } }) := by
  by_cases h : s.cursor.nextIdx = 0
  · exact .inl ⟨h, by rw [State.scanInvalid, if_pos h]⟩
  · by_cases hs : s.seq.sstart = 0
    · exact .inr (.inl ⟨h, hs, by rw [State.scanInvalid, if_neg h]; exact if_pos hs⟩)
    · exact .inr (.inr ⟨h, hs, by rw [State.scanInvalid, if_neg h]; exact if_neg hs⟩)

/-- Advance and guard (R236, R237). -/
theorem advance_cases (more : Bool) (s : State) :
    (nextAfter s.capacity s.cursor.nextIdx = s.seq.sstart ∧
      s.advance more =
        State.endScan more
          { s with cursor := { s.cursor with nextIdx := nextAfter s.capacity s.cursor.nextIdx } }) ∨
    (nextAfter s.capacity s.cursor.nextIdx ≠ s.seq.sstart ∧
      s.advance more =
        State.fetch more
          { s with cursor := { s.cursor with nextIdx := nextAfter s.capacity s.cursor.nextIdx } }) := by
  by_cases h : nextAfter s.capacity s.cursor.nextIdx = s.seq.sstart
  · exact .inl ⟨h, by unfold State.advance; exact if_pos h⟩
  · exact .inr ⟨h, by unfold State.advance; exact if_neg h⟩

/-- The cursor stays inside the store (R236, R241). -/
theorem nextAfter_lt {cap i : Half} (h : i < cap) : nextAfter cap i < cap := by
  unfold nextAfter
  rw [BitVec.lt_def] at *
  split
  · simp; omega
  · rename_i hne
    have hc := cap.isLt
    have hs : (i + 1).toNat = i.toNat + 1 := by
      rw [BitVec.toNat_add]; simp; omega
    rw [← BitVec.toNat_inj, hs] at hne
    omega

end Sys2Proof.Machine
end

