-- ==== Sys2Proof/Laws/PerInstr.lean ====
section
/-! SUPPORT. The per-instruction family `Fields`: the one byte of every command holds its group in bits 7:4 and its
function in bits 3:0 (spec/30_encoding.md R100, R105), one lemma per constructor. -/

namespace Sys2Proof.Laws

/-- A well-formed command is one byte, with its two fields where R100 puts them. -/
def Fields.Statement (i : Instr) : Prop :=
  i.wf = true → encode i = [encodeByte i] ∧ (encodeByte i).extractLsb' 4 4 = i.grp ∧
    (encodeByte i).extractLsb' 0 4 = i.fn

theorem Fields.nop : Fields.Statement .nop := fun _ => ⟨rfl, rfl, rfl⟩
theorem Fields.bread : Fields.Statement .bread := fun _ => ⟨rfl, rfl, rfl⟩
theorem Fields.bwrite : Fields.Statement .bwrite := fun _ => ⟨rfl, rfl, rfl⟩
theorem Fields.clkread : Fields.Statement .clkread := fun _ => ⟨rfl, rfl, rfl⟩
theorem Fields.clkwrite : Fields.Statement .clkwrite := fun _ => ⟨rfl, rfl, rfl⟩
theorem Fields.memread : Fields.Statement .memread := fun _ => ⟨rfl, rfl, rfl⟩
theorem Fields.memwrite : Fields.Statement .memwrite := fun _ => ⟨rfl, rfl, rfl⟩
theorem Fields.gettime : Fields.Statement .gettime := fun _ => ⟨rfl, rfl, rfl⟩
theorem Fields.loadcfg : Fields.Statement .loadcfg := fun _ => ⟨rfl, rfl, rfl⟩
theorem Fields.rdrec : Fields.Statement .rdrec := fun _ => ⟨rfl, rfl, rfl⟩
theorem Fields.wrrec : Fields.Statement .wrrec := fun _ => ⟨rfl, rfl, rfl⟩
theorem Fields.cntvalid : Fields.Statement .cntvalid := fun _ => ⟨rfl, rfl, rfl⟩
theorem Fields.chkdueN : Fields.Statement .chkdueN := fun _ => ⟨rfl, rfl, rfl⟩
theorem Fields.chkdueI : Fields.Statement .chkdueI := fun _ => ⟨rfl, rfl, rfl⟩

end Sys2Proof.Laws
end

