-- ==== Sys2Proof/Tests/Slice0.lean ====
section
/-! SUPPORT. Tests: ill-formed terms refused, one word per command decoded, one or two vectors of
spec/95_test_vectors.md per command (the vector is named in the docstring), and for every statement with hypotheses a
state and operands that meet them together (`witness_<statement>`). -/

namespace Sys2Proof.Tests
open Sys2Proof Sys2Proof.Machine

/-! ### Well-formedness -/

theorem test_wf_line : Line.wf { instr := .bread, dev := some (127, 2), off := some 65535, len := some 255 } = true := by
  decide
theorem test_dev_too_large : Line.wf { instr := .bread, dev := some (128, 1) } = false := by decide
theorem test_aw_three : Line.wf { instr := .bread, dev := some (0, 3) } = false := by decide
theorem test_dev_not_in_form : Line.wf { instr := .clkread, dev := some (0, 1) } = false := by decide
theorem test_off_too_large : Line.wf { instr := .clkread, off := some 65536 } = false := by decide
theorem test_off_not_in_form : Line.wf { instr := .rdrec, off := some 0 } = false := by decide
theorem test_len_too_large : Line.wf { instr := .memread, len := some 256 } = false := by decide
theorem test_len_not_in_form : Line.wf { instr := .nop, len := some 0 } = false := by decide
theorem test_idx_too_large : Line.wf { instr := .rdrec, idx := some 65536 } = false := by decide
theorem test_idx_not_in_form : Line.wf { instr := .memread, idx := some 0 } = false := by decide
theorem test_data_byte_too_large : Line.wf { instr := .bwrite, data := some [256] } = false := by decide
theorem test_data_nine_bytes : Line.wf { instr := .wrrec, data := some [1, 0, 0, 0, 0, 0, 0, 0, 0] } = false := by decide
theorem test_data_not_in_form : Line.wf { instr := .gettime, data := some [] } = false := by decide
theorem test_params_wf : Params.default.wf = true := by decide
theorem test_maxIter_zero : Params.wf { Params.default with maxIter := 0 } = false := by decide
theorem test_hwinfo_low : Params.wf { Params.default with hwinfoOff := 6 } = false := by decide
theorem test_hwinfo_high : Params.wf { Params.default with hwinfoOff := 249 } = false := by decide

/-! ### Decoding: the words of spec/30_encoding.md R101, written out -/

theorem test_decode_nop : decodeByte 0b00000000 = .ok .nop := by decide
theorem test_decode_bread : decodeByte 0b00010000 = .ok .bread := by decide
theorem test_decode_bwrite : decodeByte 0b00010001 = .ok .bwrite := by decide
theorem test_decode_clkread : decodeByte 0b00100000 = .ok .clkread := by decide
theorem test_decode_clkwrite : decodeByte 0b00100001 = .ok .clkwrite := by decide
theorem test_decode_memread : decodeByte 0b00100010 = .ok .memread := by decide
theorem test_decode_memwrite : decodeByte 0b00100011 = .ok .memwrite := by decide
theorem test_decode_gettime : decodeByte 0b00100100 = .ok .gettime := by decide
theorem test_decode_loadcfg : decodeByte 0b00100101 = .ok .loadcfg := by decide
theorem test_decode_rdrec : decodeByte 0b00110000 = .ok .rdrec := by decide
theorem test_decode_wrrec : decodeByte 0b00110001 = .ok .wrrec := by decide
theorem test_decode_cntvalid : decodeByte 0b00110010 = .ok .cntvalid := by decide
theorem test_decode_chkdueN : decodeByte 0b01000000 = .ok .chkdueN := by decide
theorem test_decode_chkdueI : decodeByte 0b01000001 = .ok .chkdueI := by decide
theorem test_decode_illegal : decodeByte 0b01000010 = .error (.illegalCommand 0x42) := by decide
theorem test_decode_nothing : decode [] = .error .noByte := by decide
theorem test_table_word : decodeTableWord 8 0x25 = some .loadcfg := by decide

/-! ### Small states -/

/-- After reset, with the trace `ins` to come. -/
def fresh (ins : List Instant) : State := State.reset.withInputs ins

/-- The operands `DEV`, `OFF`, `LEN`, the default build but for `MAX_ITER`. -/
def bus (maxIter dev : Byte) (off : Half) (len : Byte) (ins : List Instant) : State :=
  { fresh ins with cfg := { Params.default with maxIter := maxIter }, ops := { dev := dev, off := off, len := len, idx := 0 } }

/-- The default build with `CAPACITY`, the cursor and `IDX`, ten bytes in `DBUF`. -/
def store (cap : Half) (c : Cursor) (idx : Half) (rec : List Byte) (ins : List Instant) : State :=
  { fresh ins with capacity := cap, cursor := c, ops := { dev := 0, off := 0, len := 0, idx := idx },
                   dbuf := Memory.writeBytes 0 rec [] }

/-- The state after a command. -/
def after (i : Instr) (s : State) : State :=
  match exec i s with
  | .next t => t
  | .fault _ => s
  | .refused _ => s

/-- The time record `hh:mm` of wd3 15/06/26 in BCD. -/
def time (h m : Byte) : List Byte := [0, m, h, 3, 0x15, 0x06, 0x26]

/-- A valid record at `hh:mm`, on. -/
def rec (h m : Byte) : List Byte := [1, 0x41, 1, 0, 0, 0, 0, h, m, 1]

/-- An invalid record. -/
def noRec : List Byte := [0, 0, 0, 0, 0, 0, 0, 0, 0, 0]

/-! ### Vectors -/

/-- R260. -/
theorem test_nop : (after .nop { fresh [] with fail := true, err := 6 }).statusByte = 0 := by decide

/-- V3: one address byte ignores `OFF[15:8]`. -/
theorem test_bread_v3 :
    (fun t : State => (t.bte.count, t.dbuf, t.env.prims.map PrimEvent.prim))
      (after .bread (bus 200 0x68 0x1200 1 (readTrace 0x08 0x10 1 [0x59]))) =
    (1, [(0, 0x59)],
      [.start, .send 0xD0, .send 0x00, .start, .send 0xD1, .recvNack, .stop]) := by decide

/-- V16: arbitration lost at a received byte. -/
theorem test_bread_v16 :
    (fun t : State => (t.fail, t.bte.count, t.bte.iter, t.dbuf, t.env.prims.length))
      (after .bread (bus 200 0xD0 0x0200 2
        ((readTrace 0x08 0x10 2 [0xA1, 0xA2]).take 7 ++ [.answer 0x38 0xEE] ++ readTrace 0x08 0x10 2 [0xA1, 0xA2]))) =
    (false, 2, 0, [(0, 0xA1), (1, 0xA2)], 17) := by decide

/-- V1. -/
theorem test_bwrite_v1 :
    (fun t : State => (t.bte.count, t.bte.bstat, t.env.prims.map PrimEvent.prim))
      (after .bwrite { bus 200 0xD0 0x0123 3 (writeTrace 0x08 2 3) with dbuf := [(0, 0x11), (1, 0x22), (2, 0x33)] }) =
    (3, 0x28,
      [.start, .send 0xA0, .send 0x01, .send 0x23, .send 0x11, .send 0x22, .send 0x33, .stop]) := by decide

/-- V12: a data byte refused. -/
theorem test_bwrite_v12 :
    (fun t : State => (t.fail, t.err, t.bte.count, t.bte.bstat, t.env.prims.length))
      (after .bwrite { bus 200 0xD0 0x0300 3 ((writeTrace 0x08 2 1).dropLast ++ [.answer 0x30 0, .quiet]) with
        dbuf := [(0, 1), (1, 2), (2, 3)] }) =
    (true, 2, 0, 0x30, 7) := by decide

/-- T1: the bytes are raw, `DT_*` not written. -/
theorem test_clkread_t1 :
    (fun t : State => (t.bte.count, t.dt, t.dbufGet 1)) (after .clkread (bus 200 0 0 7 (readTrace 0x08 0x10 1 (time 0x10 1)))) =
    (7, State.reset.dt, 1) := by decide

/-- T3. -/
theorem test_clkwrite_t3 :
    ((after .clkwrite { bus 200 0 1 2 (writeTrace 0x08 1 2) with dbuf := [(0, 0x30), (1, 0x12)] }).env.prims.map
      PrimEvent.prim) =
    [.start, .send 0xD0, .send 0x01, .send 0x30, .send 0x12, .stop] := by decide

/-- T4: no range check, with `CAPACITY` 0. -/
theorem test_memread_t4 :
    (fun t : State => (t.fail, t.bte.count, t.capacity))
      (after .memread (bus 200 0 20 10 (readTrace 0x08 0x10 2 (rec 9 0)))) = (false, 10, 0) := by decide

/-- T4. -/
theorem test_memwrite_t4 :
    ((after .memwrite { bus 200 0 0 1 (writeTrace 0x08 2 1) with dbuf := [(0, 0)] }).env.prims.map PrimEvent.prim) =
    [.start, .send 0xA0, .send 0x00, .send 0x00, .send 0x00, .stop] := by decide

/-- T2. -/
theorem test_gettime_t2 :
    (after .gettime (fresh (readTrace 0x08 0x10 1 [0x30, 0x01, 0x10, 0x03, 0x15, 0x06, 0x26]))).dt =
    ⟨30, 1, 10, 3, 15, 6, 26⟩ := by decide

/-- T6: no `E_BADTIME`. -/
theorem test_gettime_t6 :
    (fun t : State => (t.fail, t.err, t.dt))
      (after .gettime (fresh (readTrace 0x08 0x10 1 [0x7F, 0x5A, 0x24, 0x08, 0x32, 0x13, 0xA0]))) =
    (false, 0, ⟨85, 60, 24, 8, 32, 13, 100⟩) := by decide

/-- T7. -/
theorem test_loadcfg_t7 :
    (fun t : State => (t.statusByte, t.capacity, t.hw))
      (after .loadcfg (fresh (readTrace 0x08 0x10 1 [0x01, 0x02, 0x00, 0x80, 0x00, 0x00, 0xA5, 0x5A]))) =
    (0x10, 3276, ⟨1, 2, 32768, 0xA5, 0x5A⟩) := by decide

/-- T9: a busy clock with `MAX_ITER` 1. -/
theorem test_loadcfg_t9 :
    (fun t : State => (t.statusByte, t.err, t.capacity, t.hw.ver))
      (after .loadcfg { bus 1 0 0 0 (busyTrace [0x08] ++ [.quiet]) with
        capacity := 3276, cfgok := true, hw := ⟨1, 2, 32768, 0xA5, 0x5A⟩ }) =
    (0x02, 4, 0, 1) := by decide

/-- S1d: the offset of the last slot, 0x7FEE. -/
theorem test_rdrec_s1d :
    (((after .rdrec (store 3276 ⟨0, 0⟩ 3275 [] (readTrace 0x08 0x10 2 (rec 9 0)))).env.prims.map PrimEvent.prim).take 4) =
    [.start, .send 0xA0, .send 0x7F, .send 0xEE] := by decide

/-- S1d: out of range, no primitive. -/
theorem test_rdrec_range :
    (fun t : State => (t.fail, t.err, t.env.prims)) (after .rdrec (store 3276 ⟨0, 0⟩ 3276 [] [])) = (true, 6, []) := by
  decide

/-- S1: ten bytes. -/
theorem test_wrrec_s1 :
    (fun t : State => (t.fail, t.bte.count, t.env.prims.length))
      (after .wrrec (store 3276 ⟨0, 0⟩ 0 (rec 9 0) (writeTrace 0x08 2 10))) = (false, 10, 15) := by decide

/-- S1b: the one-byte invalidate. -/
theorem test_wrrec_s1b :
    ((after .wrrec (store 3276 ⟨0, 0⟩ 1 [0] (writeTrace 0x08 2 1))).env.prims.map PrimEvent.prim) =
    [.start, .send 0xA0, .send 0x00, .send 0x0A, .send 0x00, .stop] := by decide

/-- S9d: a hole ends the count. -/
theorem test_cntvalid_s9d :
    (fun t : State => (t.res, t.fail, t.err)) (after .cntvalid (store 5 ⟨0, 0⟩ 0 [] (recordsTrace 2 plainStarts [rec 0 0, noRec]))) =
    (1, false, 0) := by decide

/-- S9f. -/
theorem test_cntvalid_s9f :
    (fun t : State => (t.res, t.fail, t.err, t.env.prims)) (after .cntvalid (fresh [])) = (0, false, 0, []) := by decide

/-- R220's example: the 09:00 record at 09:01. -/
theorem test_chkdueN_r220 :
    (fun t : State => (t.cursor, t.env.txs))
      (after .chkdueN (store 5 ⟨540, 0⟩ 0 []
        (readTrace 0x08 0x10 1 (time 0x09 1) ++ readTrace 0x08 0x10 2 (rec 9 0) ++ [.ack] ++ readTrace 0x08 0x10 2 noRec))) =
    (⟨541, 0⟩, [⟨0x41, 1, true⟩]) := by decide

/-- S8: hours byte 0x24. -/
theorem test_chkdueN_s8 :
    (fun t : State => (t.fail, t.err, t.cursor.lastMin, t.dt.hour))
      (after .chkdueN (store 5 ⟨100, 0⟩ 0 [] (readTrace 0x08 0x10 1 (time 0x24 0)))) = (true, 7, 100, 24) := by decide

/-- R221's example: Init at 12:00 over 07:00 and 12:00. -/
theorem test_chkdueI_r221 :
    (fun t : State => (t.cursor, t.env.txs))
      (after .chkdueI (store 5 ⟨0, 0⟩ 0 []
        (readTrace 0x08 0x10 1 (time 0x12 0) ++ readTrace 0x08 0x10 2 (rec 7 0) ++ readTrace 0x08 0x10 2 (rec 12 0)))) =
    (⟨720, 1⟩, []) := by decide

/-! ### Witnesses: states that meet the hypotheses of a statement together, at boundary values -/

theorem fresh_ready (ins : List Instant) : Ready (fresh ins) := ⟨rfl, rfl, rfl, rfl⟩
theorem bus_ready (m d : Byte) (o : Half) (n : Byte) (ins : List Instant) : Ready (bus m d o n ins) :=
  ⟨rfl, rfl, rfl, rfl⟩
theorem store_ready (cap : Half) (c : Cursor) (x : Half) (r : List Byte) (ins : List Instant) :
    Ready (store cap c x r ins) := ⟨rfl, rfl, rfl, rfl⟩

/-- The host writes `CMD`. -/
def cmdWrite (c : Byte) : Instant := { host := some (.write addrCmd c) }

/-- A transfer under way, at protocol state `p` with `BIDX` = `k` of `n` bytes. -/
def under (p : PState) (k : BitVec 9) (n : Byte) (ins : List Instant) : State :=
  { fresh ins with busy := true, bte := { Bte.reset with pstate := p, bidx := k, xlen := n, xaw := 2 },
                   seq := { Seq.reset with task := .transfer } }

theorem witness_DecodeEncodeInverse :
    (∃ i : Instr, i.wf = true) ∧ ∃ (c : Byte) (i : Instr), decodeByte c = .ok i :=
  ⟨⟨.nop, rfl⟩, 0x41, .chkdueI, rfl⟩

theorem witness_IllegalBytes :
    ∃ (s : State) (c : Byte) (rest : List Instant), Ready s ∧ decodeByte c = .error (.illegalCommand c) ∧
      s.env.inputs = { host := some (.write addrCmd c) } :: rest :=
  ⟨fresh [cmdWrite 0xFF], 0xFF, [], fresh_ready _, rfl, rfl⟩

theorem witness_StepRunsDecoded :
    ∃ (s : State) (i : Instr) (inst : Instant) (rest : List Instant), i.wf = true ∧ s.busy = false ∧ inst.reset = false ∧
      inst.host = some (.write addrCmd (encodeByte i)) ∧ s.env.inputs = inst :: rest :=
  ⟨fresh [{ cmdWrite 0x41 with tick := true }], .chkdueI, _, _, rfl, rfl, rfl, rfl, rfl⟩

theorem witness_NopCompletes : ∃ s : State, Ready s := ⟨_, fresh_ready []⟩

theorem witness_CommandDiscarded :
    (∃ s : State, s.busy = true ∧ s.halt = false) ∧ ∃ s : State, s.busy = false ∧ s.halt = true :=
  ⟨⟨{ fresh [] with busy := true }, rfl, rfl⟩, ⟨{ fresh [] with halt := true }, rfl, rfl⟩⟩

theorem witness_ReadCommandsComplete :
    (∃ (s : State) (ds : List Byte), Ready s ∧ isStart 0x08 = true ∧ isStart 0x10 = true ∧ ds.length = s.ops.len.toNat ∧
      s.env.inputs = readTrace 0x08 0x10 s.opAw ds ++ []) ∧
    (∃ (s : State) (ds : List Byte), Ready s ∧ isStart 0x10 = true ∧ isStart 0x08 = true ∧ ds.length = s.ops.len.toNat ∧
      s.env.inputs = readTrace 0x10 0x08 1 ds ++ []) ∧
    (∃ (s : State) (ds : List Byte), Ready s ∧ isStart 0x08 = true ∧ isStart 0x10 = true ∧ ds.length = s.ops.len.toNat ∧
      s.env.inputs = readTrace 0x08 0x10 s.memAw ds ++ [Instant.quiet]) :=
  ⟨⟨bus 200 0xD0 0x0123 0 (readTrace 0x08 0x10 2 []), [], bus_ready .., rfl, rfl, rfl, by decide⟩,
   ⟨bus 200 0 0 1 (readTrace 0x10 0x08 1 [0x59]), [0x59], bus_ready .., rfl, rfl, rfl, by decide⟩,
   ⟨bus 200 0 0 2 (readTrace 0x08 0x10 2 [1, 2] ++ [Instant.quiet]), [1, 2], bus_ready .., rfl, rfl, rfl, by decide⟩⟩

theorem witness_ReadCommandsComplete_255 :
    ∃ (s : State) (ds : List Byte), Ready s ∧ ds.length = s.ops.len.toNat ∧ s.ops.len = 255 ∧
      s.env.inputs = readTrace 0x08 0x10 s.opAw ds ++ [] :=
  ⟨bus 200 0x50 0 255 (readTrace 0x08 0x10 1 (List.replicate 255 7)), List.replicate 255 7, bus_ready .., by
    rw [List.length_replicate]; rfl, rfl, (List.append_nil _).symm⟩

theorem witness_WriteCommandsComplete :
    (∃ s : State, Ready s ∧ isStart 0x08 = true ∧ s.env.inputs = writeTrace 0x08 s.opAw s.ops.len.toNat ++ []) ∧
    (∃ s : State, Ready s ∧ isStart 0x10 = true ∧ s.env.inputs = writeTrace 0x10 1 s.ops.len.toNat ++ []) ∧
    (∃ s : State, Ready s ∧ isStart 0x08 = true ∧ s.env.inputs = writeTrace 0x08 s.memAw s.ops.len.toNat ++ []) :=
  ⟨⟨bus 200 0xD0 0x0123 0 (writeTrace 0x08 2 0), bus_ready .., rfl, by decide⟩,
   ⟨bus 200 0 0 1 (writeTrace 0x10 1 1), bus_ready .., rfl, by decide⟩,
   ⟨bus 200 0 0 3 (writeTrace 0x08 2 3), bus_ready .., rfl, by decide⟩⟩

/-- Its clause on the commands, for RDREC, and its clause on `Memory.writeBytes`. -/
theorem witness_ReadBytesLand :
    (∃ (s : State) (x : Xfer) (ds : List Byte), Ready s ∧ isStart 0x10 = true ∧ isStart 0x08 = true ∧
      s.single? .rdrec = some x ∧ x.kind = .rd ∧ x.data s ds ∧ s.env.inputs = x.trace 0x10 0x08 ds ++ []) ∧
    ∃ ds : List Byte, ds.length ≤ 256 ∧ ds ≠ [] :=
  ⟨⟨store 1 ⟨0, 0⟩ 0 [] (readTrace 0x10 0x08 2 (rec 9 0)), _, rec 9 0, store_ready .., rfl, rfl, rfl, rfl,
      ⟨rfl, by decide⟩, by decide⟩,
   [1], by decide, by decide⟩

theorem witness_ZeroLength :
    ∃ (s : State) (i : Instr) (x : Xfer), Ready s ∧ isStart 0x08 = true ∧ isStart 0x10 = true ∧ s.xfer? i = some x ∧ x.len = 0 ∧
      s.env.inputs = x.trace 0x08 0x10 [] ++ [] :=
  ⟨bus 200 0xD0 0x0010 0 (readTrace 0x08 0x10 2 []), .bread, _, bus_ready .., rfl, rfl, rfl, rfl, by decide⟩

theorem witness_ZeroLength_write :
    ∃ (s : State) (i : Instr) (x : Xfer), Ready s ∧ s.xfer? i = some x ∧ x.len = 0 ∧
      s.env.inputs = x.trace 0x08 0x10 [] ++ [] :=
  ⟨bus 200 0xD0 0x0010 0 (writeTrace 0x08 2 0), .bwrite, _, bus_ready .., rfl, rfl, by decide⟩

theorem witness_PrimitiveCounts :
    ∃ (s : State) (i : Instr) (x : Xfer) (ds : List Byte), Ready s ∧ isStart 0x08 = true ∧ isStart 0x10 = true ∧ s.xfer? i = some x ∧
      x.data s ds ∧ s.env.inputs = x.trace 0x08 0x10 ds ++ [] :=
  ⟨bus 200 0xD0 0x0010 2 (readTrace 0x08 0x10 2 [1, 2]), .bread, _, [1, 2], bus_ready .., rfl, rfl, rfl, ⟨rfl, by decide⟩,
    by decide⟩

theorem witness_PrimitiveCounts_write :
    ∃ (s : State) (i : Instr) (x : Xfer) (ds : List Byte), Ready s ∧ s.xfer? i = some x ∧ x.kind = .wr ∧
      x.data s ds ∧ s.env.inputs = x.trace 0x08 0x10 ds ++ [] :=
  ⟨bus 200 0xD0 0x0010 1 (writeTrace 0x08 2 1), .bwrite, _, (bus 200 0xD0 0x0010 1 (writeTrace 0x08 2 1)).dbufTake 1,
    bus_ready .., rfl, rfl, ⟨rfl, fun _ => rfl⟩, by rfl⟩

theorem plainStarts_ok : plainStarts.Ok := fun _ => ⟨rfl, rfl⟩

/-- Its first clause. -/
theorem witness_RetryBound :
    ∃ (s : State) (i : Instr) (x : Xfer), Ready s ∧ s.cfg.wf = true ∧ s.xfer? i = some x ∧ NoReset s :=
  ⟨bus 1 0x23 0 1 (busyTrace [0x08] ++ [.quiet]), .bread, _, bus_ready .., rfl, rfl, by unfold NoReset; decide⟩

/-- Its second clause, with no refusal, and with one below `MAX_ITER`, the first START answered by a fresh start. -/
theorem witness_RetryBound_below :
    (∃ (s : State) (x : Xfer) (ds : List Byte), Ready s ∧ s.cfg.wf = true ∧ s.xfer? .bread = some x ∧
      ([] : List Byte).length < s.cfg.maxIter.toNat ∧ x.data s ds ∧
      s.env.inputs = busyTrace [] ++ x.trace 0x08 0x10 ds ++ []) ∧
    (∃ (s : State) (x : Xfer) (ds sts : List Byte), Ready s ∧ s.cfg.wf = true ∧ s.xfer? .bread = some x ∧
      sts = [0x08, 0x10] ∧ (∀ b ∈ sts, isStart b = true) ∧ sts.length < s.cfg.maxIter.toNat ∧ s.cfg.maxIter = 3 ∧
      x.data s ds ∧ s.env.inputs = busyTrace sts ++ x.trace 0x10 0x08 ds ++ []) :=
  ⟨⟨bus 1 0xD0 0 1 (readTrace 0x08 0x10 2 [7]), _, [7], bus_ready .., rfl, rfl, by decide, ⟨rfl, by decide⟩,
      by decide⟩,
   ⟨bus 3 0xD0 0 1 (busyTrace [0x08, 0x10] ++ readTrace 0x10 0x08 2 [7]), _, [7], _, bus_ready .., rfl, rfl, rfl,
      by decide, by decide, rfl, ⟨rfl, by decide⟩, by decide⟩⟩

/-- Its third clause, V6's refusals, with an answer that arrives with the STOP. -/
theorem witness_RetryBound_at :
    ∃ (s : State) (x : Xfer) (j : Instant) (sts : List Byte), Ready s ∧ s.cfg.wf = true ∧ s.xfer? .bread = some x ∧
      sts = [0x08, 0x10, 0x10] ∧ (∀ b ∈ sts, isStart b = true) ∧ sts.length = s.cfg.maxIter.toNat ∧ j.reset = false ∧
      j.host = none ∧ j.tick = false ∧ s.env.inputs = busyTrace sts ++ j :: [] :=
  ⟨bus 3 0x23 0 1 (busyTrace [0x08, 0x10, 0x10] ++ [.answer 0x10 0]), _, .answer 0x10 0, _, bus_ready .., rfl, rfl, rfl,
    by decide, rfl, rfl, rfl, rfl, by decide⟩

/-- Its clauses on the transaction of any operation, below the bound and at it. -/
theorem witness_RetryBound_engine :
    (∃ (s : State) (p : Prim), Outstanding s p ∧ s.bte.pstate = .slaw ∧ s.bte.iter + 1 < s.cfg.maxIter ∧
      s.env.inputs = .answer stSlawNack 0 :: []) ∧
    (∃ (s : State) (p : Prim), Outstanding s p ∧ s.bte.pstate = .slaw ∧ s.bte.iter + 1 = s.cfg.maxIter ∧
      s.env.inputs = .answer stSlawNack 0 :: Instant.quiet :: []) :=
  ⟨⟨under .slaw 0 1 [.answer 0x20 0], _, ⟨rfl, rfl, rfl, by decide⟩, rfl, by decide, rfl⟩,
   ⟨{ under .slaw 0 1 [.answer 0x20 0, Instant.quiet] with cfg := { Params.default with maxIter := 1 } }, _,
      ⟨rfl, rfl, rfl, by decide⟩, rfl, by decide, rfl⟩⟩

theorem witness_NotStartExit :
    (∃ s : State, Outstanding s .start ∧ s.bte.pstate = .start ∧ (0xF8 : Byte) ∉ PState.named 0 .start ∧
      s.bte.owned = false ∧ s.env.inputs = .answer 0xF8 0 :: []) ∧
    (∃ s : State, Outstanding s .start ∧ s.bte.pstate = .start ∧ (0x00 : Byte) ∉ PState.named 0 .start ∧
      s.bte.owned = true ∧ s.env.inputs = .answer 0x00 0 :: Instant.quiet :: []) :=
  ⟨⟨under .start 0 1 [.answer 0xF8 0], ⟨rfl, rfl, rfl, by decide⟩, rfl, by decide, rfl, rfl⟩,
   ⟨(fun s : State => { s with bte := { s.bte with owned := true } }) (under .start 0 1 [.answer 0x00 0, Instant.quiet]),
    ⟨rfl, rfl, rfl, by decide⟩, rfl, by decide, rfl, rfl⟩⟩

theorem witness_UnexpectedStatus :
    (∃ (s : State) (p : Prim), Outstanding s p ∧ s.bte.pstate ≠ .start ∧
      (0x40 : Byte) ∉ PState.named s.bte.expected s.bte.pstate ∧
      s.env.inputs = .answer 0x40 0 :: Instant.quiet :: []) ∧
    (∃ (s : State) (p : Prim), Outstanding s p ∧ s.bte.pstate = .rdata ∧
      (0x58 : Byte) ∉ PState.named s.bte.expected s.bte.pstate ∧
      s.env.inputs = .answer 0x58 0xEE :: Instant.quiet :: []) :=
  ⟨⟨under .slaw 0 1 [.answer 0x40 0, Instant.quiet], _, ⟨rfl, rfl, rfl, by decide⟩, by decide, by decide, rfl⟩,
   ⟨under .rdata 0 2 [.answer 0x58 0xEE, Instant.quiet], .recvAck, ⟨rfl, rfl, by decide, by decide⟩, rfl, by decide,
    rfl⟩⟩

theorem witness_ByteNackStops :
    (∃ (s : State) (p : Prim), Outstanding s p ∧ s.bte.pstate.byteNack = some 0x30 ∧
      s.env.inputs = .answer 0x30 0 :: Instant.quiet :: []) ∧
    (∃ (s : State) (p : Prim), Outstanding s p ∧ s.bte.pstate.byteNack = some 0x48 ∧
      s.env.inputs = .answer 0x48 0 :: Instant.quiet :: []) :=
  ⟨⟨under .addrH 0 1 [.answer 0x30 0, Instant.quiet], _, ⟨rfl, rfl, rfl, by decide⟩, rfl, rfl⟩,
   ⟨under .slar 0 1 [.answer 0x48 0, Instant.quiet], _, ⟨rfl, rfl, rfl, by decide⟩, rfl, rfl⟩⟩

theorem witness_ArbitrationRestarts :
    (∃ s : State, Outstanding s .start ∧ s.env.inputs = .answer stArbLost 0 :: []) ∧
    (∃ s : State, Outstanding s .recvNack ∧ s.bte.bidx = 1 ∧ s.env.inputs = .answer stArbLost 0xEE :: []) :=
  ⟨⟨under .start 0 1 [.answer 0x38 0], ⟨rfl, rfl, rfl, by decide⟩, rfl⟩,
   ⟨under .rdata 1 2 [.answer 0x38 0xEE], ⟨rfl, rfl, by decide, by decide⟩, rfl, rfl⟩⟩

theorem witness_BusReleased :
    ∃ (s t : State) (x : Xfer), Ready s ∧ NoReset s ∧ s.single? .wrrec = some x ∧ exec .wrrec s = .next t ∧
      t.busy = false :=
  ⟨store 1 ⟨0, 0⟩ 0 [0] (writeTrace 0x08 2 1), _, _, store_ready .., by unfold NoReset; decide, rfl, rfl, by decide⟩

/-- Its second alternative. -/
theorem witness_BusReleased_noStop :
    ∃ (s t : State) (x : Xfer), Ready s ∧ NoReset s ∧ s.single? .bread = some x ∧ exec .bread s = .next t ∧
      t.busy = false ∧ t.err = 1 :=
  ⟨bus 200 0xD0 0 1 [.answer 0x38 0, .answer 0xF8 0], _, _, bus_ready .., by unfold NoReset; decide, rfl, rfl, by decide,
    by decide⟩

theorem witness_ResultTriple :
    ∃ (s t : State) (x : Xfer), Ready s ∧ NoReset s ∧ s.xfer? .memread = some x ∧ exec .memread s = .next t ∧
      t.busy = false :=
  ⟨bus 200 0 0 1 (readTrace 0x08 0x10 2 [9]), _, _, bus_ready .., by unfold NoReset; decide, rfl, rfl, by decide⟩

theorem witness_WriteReadRoundTrip :
    ∃ (e : RefEnv) (d : RefDevice) (s : State), Ready s ∧ s.cfg.wf = true ∧ e.dev? s.opDev = some d ∧
      d.aw = s.opAw.toNat ∧ e.forced = [] ∧ d.busy < s.cfg.maxIter.toNat ∧ e.wbusy < s.cfg.maxIter.toNat ∧
      (if s.opAw = 2 then s.ops.off.toNat else s.ops.off.toNat % 256) + s.ops.len.toNat ≤ d.size :=
  ⟨{ RefEnv.standard with wbusy := 2 }, { size := 32768, aw := 2 }, bus 3 0xD0 32765 3 [], bus_ready .., rfl, rfl,
    by decide, rfl, by decide, by decide, by decide⟩

theorem witness_GetTimeCompletes :
    ∃ (s : State) (bs : List Byte), Ready s ∧ isStart 0x08 = true ∧ isStart 0x10 = true ∧ bs.length = 7 ∧
      s.env.inputs = readTrace 0x08 0x10 1 bs ++ [] :=
  ⟨fresh (readTrace 0x08 0x10 1 (time 0x10 1)), time 0x10 1, fresh_ready _, rfl, rfl, rfl, by decide⟩

theorem witness_LoadCfgCompletes :
    ∃ s : State, Ready s ∧ isStart 0x08 = true ∧ isStart 0x10 = true ∧
      s.env.inputs = readTrace 0x08 0x10 1 [0x01, 0x02, 0xFF, 0xFF, 0xFF, 0xFF, 0xA5, 0x5A] ++ [] :=
  ⟨fresh (readTrace 0x08 0x10 1 [0x01, 0x02, 0xFF, 0xFF, 0xFF, 0xFF, 0xA5, 0x5A]), fresh_ready _, rfl, rfl, by decide⟩

theorem witness_ClockReadsFail :
    ∃ s : State, Ready s ∧ (0x00 : Byte) ∉ PState.named 0 .start ∧ s.env.inputs = .answer 0x00 0 :: [] :=
  ⟨fresh [.answer 0x00 0], fresh_ready _, by decide, rfl⟩

theorem witness_CapacityBounds :
    (∃ m : BitVec 32, m < 10) ∧ (∃ i : Half, i < 6553 ∧ i = 6552) := ⟨⟨9, by decide⟩, ⟨6552, by decide, rfl⟩⟩

theorem witness_BcdValue :
    ∃ b : Byte, (b.extractLsb' 4 4).toNat ≤ 9 ∧ (b.extractLsb' 0 4).toNat ≤ 9 := ⟨0x99, by decide, by decide⟩

theorem witness_RecordCommandsComplete :
    (∃ (s : State) (ds : List Byte), Ready s ∧ isStart 0x08 = true ∧ isStart 0x10 = true ∧ s.ops.idx < s.capacity ∧ ds.length = 10 ∧
      s.env.inputs = readTrace 0x08 0x10 s.memAw ds ++ []) ∧
    (∃ s : State, Ready s ∧ s.ops.idx < s.capacity ∧ s.dbufGet 0 = 0 ∧
      s.env.inputs = writeTrace 0x08 s.memAw 1 ++ []) ∧
    (∃ s : State, Ready s ∧ s.ops.idx < s.capacity ∧ s.dbufGet 0 ≠ 0 ∧
      s.env.inputs = writeTrace 0x08 s.memAw 10 ++ []) :=
  ⟨⟨store 6553 ⟨0, 0⟩ 6552 [] (readTrace 0x08 0x10 2 (rec 9 0)), rec 9 0, store_ready .., rfl, rfl, by decide, rfl, by decide⟩,
   ⟨store 1 ⟨0, 0⟩ 0 [0] (writeTrace 0x08 2 1), store_ready .., by decide, rfl, by decide⟩,
   ⟨store 1 ⟨0, 0⟩ 0 (rec 9 0) (writeTrace 0x08 2 10), store_ready .., by decide, by decide, by decide⟩⟩

theorem witness_RangeCheck :
    (∃ s : State, Ready s ∧ s.capacity ≤ s.ops.idx ∧ s.ops.idx = 3276 ∧ s.capacity = 3276) ∧
    (∃ s : State, s.capacity = 0) ∧ (∃ s : State, s.capacity ≤ 6553 ∧ s.ops.idx < s.capacity) :=
  ⟨⟨store 3276 ⟨0, 0⟩ 3276 [] [], store_ready .., by decide, rfl, rfl⟩, ⟨fresh [], rfl⟩,
   ⟨store 6553 ⟨0, 0⟩ 6552 [] [], by decide, by decide⟩⟩

/-- The answers to a Read of the memory device whose read selection is refused. -/
def refusedRead : List Instant :=
  (readTrace 0x08 0x10 2 []).take 5 ++ [.answer 0x48 0, .quiet]

/-- With an invalid record, with a full store, and with `CAPACITY` 0. -/
theorem witness_CountsValidPrefix :
    (∃ (s : State) (rs tail : List (List Byte)), Ready s ∧ (∀ r ∈ rs, r.length = 10 ∧ recByte r 0 ≠ 0) ∧
      (∀ r ∈ tail, r.length = 10 ∧ recByte r 0 = 0) ∧ (rs.length < s.capacity.toNat ∧ tail.length = 1) ∧
      s.env.inputs = recordsTrace s.memAw plainStarts (rs ++ tail) ++ []) ∧
    (∃ (s : State) (rs : List (List Byte)), Ready s ∧ (∀ r ∈ rs, r.length = 10 ∧ recByte r 0 ≠ 0) ∧
      rs.length = s.capacity.toNat ∧ s.env.inputs = recordsTrace s.memAw plainStarts (rs ++ []) ++ []) ∧
    (∃ s : State, Ready s ∧ ([] : List (List Byte)).length = s.capacity.toNat ∧
      s.env.inputs = recordsTrace s.memAw plainStarts ([] ++ []) ++ []) :=
  ⟨⟨store 5 ⟨0, 0⟩ 0 [] (recordsTrace 2 plainStarts [rec 0 0, noRec]), [rec 0 0], [noRec], store_ready .., by decide, by decide,
      by decide, by decide⟩,
   ⟨store 2 ⟨0, 0⟩ 0 [] (recordsTrace 2 plainStarts [rec 0 0, rec 1 0]), [rec 0 0, rec 1 0], store_ready .., by decide, rfl,
      by decide⟩,
   ⟨fresh [], fresh_ready _, rfl, rfl⟩⟩

/-- Both clauses: S9e's failure, the read selection of the second record refused, and an unexpected status. -/
theorem witness_CountFailureIsZero :
    (∃ (s : State) (rs : List (List Byte)) (ins : List Instant) (u : State), Ready s ∧ plainStarts.Ok ∧
      (∀ r ∈ rs, r.length = 10 ∧ recByte r 0 ≠ 0) ∧ rs.length < s.capacity.toNat ∧
      Fails .memread s (recOffset (BitVec.ofNat 16 rs.length)) 10 ins u ∧ u.err = 2 ∧
      s.env.inputs = recordsTrace s.memAw plainStarts rs ++ ins) ∧
    (∃ (s : State) (rs : List (List Byte)), Ready s ∧ (∀ r ∈ rs, r.length = 10 ∧ recByte r 0 ≠ 0) ∧
      rs.length < s.capacity.toNat ∧ isStart 0x08 = true ∧ (0x30 : Byte) ∉ PState.named 0 .slaw ∧
      s.env.inputs = recordsTrace s.memAw plainStarts rs ++ brokenRead 0x08 0x30 ++ []) :=
  ⟨⟨store 2 ⟨0, 0⟩ 0 [] (recordsTrace 2 plainStarts [rec 0 0] ++ refusedRead), [rec 0 0], refusedRead, _, store_ready ..,
      plainStarts_ok, by decide, by decide, ⟨by decide, rfl, by decide, by decide⟩, by decide, by decide⟩,
   ⟨store 2 ⟨0, 0⟩ 0 [] (recordsTrace 2 plainStarts [rec 0 0] ++ brokenRead 0x08 0x30), [rec 0 0], store_ready ..,
      by decide, by decide, rfl, by decide, by decide⟩⟩

theorem witness_SameMinutePass :
    ∃ (s : State) (bs : List Byte), Ready s ∧ isStart 0x08 = true ∧ isStart 0x10 = true ∧ bs.length = 7 ∧ (specTime bs).bad = false ∧
      (specTime bs).minuteOfDay = s.cursor.lastMin ∧ s.env.inputs = readTrace 0x08 0x10 1 bs ++ [] :=
  ⟨store 5 ⟨1439, 0⟩ 0 [] (readTrace 0x08 0x10 1 (time 0x23 0x59)), time 0x23 0x59, store_ready .., rfl, rfl, rfl, by decide,
    by decide, by decide⟩

/-- The store of R220's example: slot 0 at 09:00, no other record. -/
def oneRecord (j : Half) : List Byte := if j = 0 then rec 9 0 else noRec

theorem oneRecord_length (j : Half) : (oneRecord j).length = 10 := by
  unfold oneRecord; split <;> rfl

/-- The events of a pass at 09:01 over it. -/
def oneRecordEvents : List ScanEvent := [.fetch 0, .tx ⟨0x41, 1, true⟩, .fetch 1]

theorem witness_PassFollowsPseudocode :
    ∃ (s : State) (bs : List Byte), Ready s ∧ isStart 0x08 = true ∧ isStart 0x10 = true ∧ plainStarts.Ok ∧ bs.length = 7 ∧
      (∀ j, (oneRecord j).length = 10) ∧ (specTime bs).bad = false ∧ s.cursor.nextIdx < s.capacity ∧
      specPass s.capacity oneRecord (specTime bs) .normal s.cursor.lastMin.toNat (specTime bs).minuteOfDay.toNat 3
        s.cursor.nextIdx = some (oneRecordEvents, 0) ∧
      s.env.inputs = readTrace 0x08 0x10 1 bs ++ eventsTrace s.memAw oneRecord plainStarts oneRecordEvents ++ [] :=
  ⟨store 5 ⟨540, 0⟩ 0 [] (readTrace 0x08 0x10 1 (time 0x09 1) ++ eventsTrace 2 oneRecord plainStarts oneRecordEvents), time 0x09 1,
    store_ready .., rfl, rfl, plainStarts_ok, rfl, oneRecord_length, by decide, by decide, by decide, by decide⟩

/-- Its clause on the tick run. -/
theorem witness_PassFollowsPseudocode_tick :
    ∃ (s : State) (bs : List Byte), Ready s ∧ isStart 0x08 = true ∧ isStart 0x10 = true ∧ plainStarts.Ok ∧ bs.length = 7 ∧
      (∀ j, (oneRecord j).length = 10) ∧ (specTime bs).bad = false ∧ s.cursor.nextIdx < s.capacity ∧
      specPass s.capacity oneRecord (specTime bs) .normal s.cursor.lastMin.toNat (specTime bs).minuteOfDay.toNat 3
        s.cursor.nextIdx = some (oneRecordEvents, 0) ∧
      s.env.inputs = Instant.quiet :: readTrace 0x08 0x10 1 bs ++ eventsTrace s.memAw oneRecord plainStarts oneRecordEvents ++ [] ∧
      s.tickEn = true ∧ s.tickp = true :=
  ⟨{ store 5 ⟨540, 0⟩ 0 []
        (Instant.quiet :: readTrace 0x08 0x10 1 (time 0x09 1) ++ eventsTrace 2 oneRecord plainStarts oneRecordEvents) with
      tickEn := true, tickp := true }, time 0x09 1,
    ⟨rfl, rfl, rfl, rfl⟩, rfl, rfl, plainStarts_ok, rfl, oneRecord_length, by decide, by decide, by decide, by decide, rfl, rfl⟩

/-- Its clause on Init, over midnight: two windows. -/
theorem witness_PassFollowsPseudocode_init :
    ∃ (s : State) (bs : List Byte) (es : List ScanEvent), Ready s ∧ bs.length = 7 ∧ (specTime bs).bad = false ∧
      s.cursor.nextIdx < s.capacity ∧
      specPass s.capacity oneRecord (specTime bs) .init s.cursor.lastMin.toNat (specTime bs).minuteOfDay.toNat 3
        s.cursor.nextIdx = some (es, 0) ∧
      s.env.inputs = readTrace 0x08 0x10 1 bs ++ eventsTrace s.memAw oneRecord plainStarts es ++ [] :=
  ⟨store 5 ⟨1439, 0⟩ 0 [] (readTrace 0x08 0x10 1 (time 0x00 0) ++ eventsTrace 2 oneRecord plainStarts [.fetch 0, .fetch 0]), time 0x00 0,
    [.fetch 0, .fetch 0], store_ready .., rfl, by decide, by decide, by decide, by decide⟩

theorem witness_InitOnlySilences :
    ∃ (s : State) (bs : List Byte), Ready s ∧ isStart 0x08 = true ∧ isStart 0x10 = true ∧ plainStarts.Ok ∧ bs.length = 7 ∧ (∀ j, (oneRecord j).length = 10) ∧
      (specTime bs).bad = false ∧ s.cursor.nextIdx < s.capacity ∧
      specPass s.capacity oneRecord (specTime bs) .normal s.cursor.lastMin.toNat (specTime bs).minuteOfDay.toNat 3
        s.cursor.nextIdx = some (oneRecordEvents, 0) :=
  ⟨store 5 ⟨540, 0⟩ 0 [] [], time 0x09 1, store_ready .., rfl, rfl, plainStarts_ok, rfl, oneRecord_length, by decide, by decide, by decide⟩

theorem witness_TransmitHandshake :
    (∃ (s : State) (more : Bool), s.busy = true ∧ s.seq.task = .dueScan more ∧ s.bte.pstate = .stopOk ∧
      s.bte.xlen = 10 ∧ s.dbufGet 0 ≠ 0 ∧ s.seq.wfrom.toNat ≤ (s.dbufGet 7).toNat * 60 + (s.dbufGet 8).toNat ∧
      (s.dbufGet 7).toNat * 60 + (s.dbufGet 8).toNat < s.seq.wto.toNat ∧ s.dbufGet 6 = 0 ∧
      (s.dbufGet 3 = 0 ∧ s.dbufGet 4 = 0 ∧ s.dbufGet 5 = 0) ∧ s.seq.mode = .normal ∧
      s.env.inputs = Instant.quiet :: []) ∧
    (∃ (s : State) (more : Bool), s.busy = true ∧ s.seq.task = .dueTx more ∧ s.env.inputs = .ack :: []) :=
  ⟨⟨{ store 5 ⟨540, 0⟩ 0 (rec 9 0) [Instant.quiet] with
        busy := true, bte := { Bte.reset with pstate := .stopOk, xlen := 10, bidx := 10 },
        seq := { Seq.reset with task := .dueScan false, wfrom := 540, wto := 541 } }, false,
      rfl, rfl, rfl, rfl, by decide, by decide, by decide, by decide, by decide, rfl, rfl⟩,
   ⟨{ fresh [.ack] with busy := true, seq := { Seq.reset with task := .dueTx true } }, true, rfl, rfl, rfl⟩⟩

/-- Both clauses: a clock that stays busy, `E_RETRY`, in a tick run; no start condition, with a TICK edge. -/
theorem witness_TimeReadFailure :
    (∃ (s : State) (d : DueBy) (u : State), Ready s ∧ d = .tick ∧ d.May s ∧ Fails .clkread s 0 7 s.env.inputs u ∧
      u.err = 4) ∧
    (∃ s : State, Ready s ∧ DueBy.May .init s ∧ (0xF8 : Byte) ∉ PState.named 0 .start ∧
      s.env.inputs = { bus := some (0xF8, 0), tick := true } :: []) :=
  ⟨⟨{ bus 1 0 0 0 (busyTrace [0x08] ++ [.quiet]) with tickEn := true, tickp := true }, .tick, _, ⟨rfl, rfl, rfl, rfl⟩,
      rfl, fun _ => ⟨rfl, rfl⟩, ⟨by decide, rfl, by decide, by decide⟩, by decide⟩,
   ⟨fresh [{ bus := some (0xF8, 0), tick := true }], fresh_ready _, (nomatch ·), by decide, rfl⟩⟩

/-- Hours 24 and minutes 60, the smallest that are refused. -/
theorem witness_BadTime :
    (∃ (s : State) (bs : List Byte), Ready s ∧ isStart 0x08 = true ∧ isStart 0x10 = true ∧ bs.length = 7 ∧
      23 < (bcd (recByte bs 2)).toNat ∧ s.env.inputs = readTrace 0x08 0x10 1 bs ++ []) ∧
    (∃ (s : State) (bs : List Byte), Ready s ∧ bs.length = 7 ∧ 59 < (bcd (recByte bs 1)).toNat ∧
      s.env.inputs = readTrace 0x08 0x10 1 bs ++ []) :=
  ⟨⟨fresh (readTrace 0x08 0x10 1 (time 0x24 0)), time 0x24 0, fresh_ready _, rfl, rfl, rfl, by decide, by decide⟩,
   ⟨fresh (readTrace 0x08 0x10 1 (time 0 0x60)), time 0 0x60, fresh_ready _, rfl, by decide, by decide⟩⟩

/-- Its first clause, with one window and with two. -/
theorem witness_ScanReadFailure :
    (∃ (s : State) (bs : List Byte) (ins : List Instant) (u : State), Ready s ∧ DueBy.May .normal s ∧ bs.length = 7 ∧
      (specTime bs).bad = false ∧ s.cursor.lastMin < (specTime bs).minuteOfDay ∧ s.cursor.nextIdx < s.capacity ∧
      Fails .memread s (recOffset s.cursor.nextIdx) 10 ins u ∧ s.env.inputs = readTrace 0x08 0x10 1 bs ++ ins) ∧
    (∃ (s : State) (bs : List Byte) (ins : List Instant) (u v : State), Ready s ∧ DueBy.May .init s ∧ bs.length = 7 ∧
      (specTime bs).bad = false ∧ (specTime bs).minuteOfDay < s.cursor.lastMin ∧ s.cursor.nextIdx < s.capacity ∧
      Fails .memread s (recOffset s.cursor.nextIdx) 10 ins u ∧
      Fails .memread s (recOffset s.cursor.nextIdx) 10 u.env.inputs v ∧ v.err = 3 ∧
      s.env.inputs = readTrace 0x08 0x10 1 bs ++ ins) :=
  ⟨⟨store 5 ⟨420, 0⟩ 0 [] (readTrace 0x08 0x10 1 (time 0x07 1) ++ refusedRead), time 0x07 1, refusedRead, _,
      store_ready .., (nomatch ·), rfl, by decide, by decide, by decide, ⟨by decide, rfl, by decide, by decide⟩,
      by decide⟩,
   ⟨store 5 ⟨1439, 4⟩ 0 [] (readTrace 0x08 0x10 1 (time 0x00 0) ++ (refusedRead ++ brokenRead 0x10 0x30)), time 0x00 0,
      refusedRead ++ brokenRead 0x10 0x30, _, _, store_ready .., (nomatch ·), rfl, by decide, by decide, by decide,
      ⟨by decide, rfl, by decide, by decide⟩, ⟨by decide, rfl, by decide, by decide⟩, by decide, by decide⟩⟩

/-- Its second clause, with one window and with two, and its third, with `CAPACITY` 0. -/
theorem witness_ScanReadFailure_status :
    (∃ (s : State) (bs : List Byte), Ready s ∧ isStart 0x08 = true ∧ bs.length = 7 ∧ (specTime bs).bad = false ∧
      (specTime bs).minuteOfDay ≠ s.cursor.lastMin ∧ (0x30 : Byte) ∉ PState.named 0 .slaw ∧
      s.cursor.nextIdx < s.capacity ∧ s.env.inputs = readTrace 0x08 0x10 1 bs ++
        (if s.cursor.lastMin < (specTime bs).minuteOfDay then brokenRead 0x08 0x30
          else brokenRead 0x08 0x30 ++ brokenRead 0x10 0x30) ++ []) ∧
    (∃ (s : State) (bs : List Byte), Ready s ∧ bs.length = 7 ∧ (specTime bs).bad = false ∧
      (specTime bs).minuteOfDay < s.cursor.lastMin ∧ s.cursor.nextIdx < s.capacity ∧
      s.env.inputs = readTrace 0x08 0x10 1 bs ++
        (if s.cursor.lastMin < (specTime bs).minuteOfDay then brokenRead 0x08 0x30
          else brokenRead 0x08 0x30 ++ brokenRead 0x10 0x30) ++ []) ∧
    (∃ (s : State) (bs : List Byte), Ready s ∧ DueBy.May .tick s ∧ bs.length = 7 ∧ (specTime bs).bad = false ∧
      (specTime bs).minuteOfDay ≠ s.cursor.lastMin ∧ s.capacity = 0 ∧
      s.env.inputs = readTrace 0x08 0x10 1 bs ++ []) :=
  ⟨⟨store 5 ⟨420, 0⟩ 0 [] (readTrace 0x08 0x10 1 (time 0x07 1) ++ brokenRead 0x08 0x30), time 0x07 1, store_ready .., rfl,
      rfl, by decide, by decide, by decide, by decide, by decide⟩,
   ⟨store 5 ⟨1439, 4⟩ 0 [] (readTrace 0x08 0x10 1 (time 0x00 0) ++ (brokenRead 0x08 0x30 ++ brokenRead 0x10 0x30)),
      time 0x00 0, store_ready .., rfl, by decide, by decide, by decide, by decide⟩,
   ⟨{ fresh (readTrace 0x08 0x10 1 (time 0x07 1)) with tickEn := true, tickp := true }, time 0x07 1,
      ⟨rfl, rfl, rfl, rfl⟩, fun _ => ⟨rfl, rfl⟩, rfl, by decide, by decide, rfl, by decide⟩⟩

/-- With an invalid slot at the cursor, and with a full store. -/
theorem witness_ScanTerminates :
    (∃ (cap v next : Half) (st : Half → List Byte), next < cap ∧ v ≤ cap ∧ next ≤ v ∧
      (∀ j, j < v → recByte (st j) 0 ≠ 0) ∧ recByte (st v) 0 = 0 ∧ next = v) ∧
    (∃ (cap v next : Half) (st : Half → List Byte), next < cap ∧ v ≤ cap ∧ next ≤ v ∧
      (∀ j, j < v → recByte (st j) 0 ≠ 0) ∧ v = cap) :=
  ⟨⟨5, 0, 0, fun _ => noRec, by decide, by decide, by decide,
      fun j h => absurd (BitVec.lt_def.1 h) (Nat.not_lt_zero _), rfl, rfl⟩,
   ⟨5, 5, 4, fun _ => rec 9 0, by decide, by decide, by decide, fun _ _ => (by decide : recByte (rec 9 0) 0 ≠ 0),
      rfl⟩⟩

theorem witness_ScanMayLoop :
    ∃ s : State, Ready s ∧ s.capacity = 4 ∧ s.cursor = { lastMin := 600, nextIdx := 3 } :=
  ⟨store 4 ⟨600, 3⟩ 0 [] [], store_ready .., rfl, rfl⟩

/-- An idle block with ticks enabled and a tick pending. -/
def ticking (ins : List Instant) : State := { fresh ins with tickEn := true, tickp := true }

theorem witness_TickRunStarts :
    (∃ (s : State) (i : Instant) (rest : List Instant), s.busy = false ∧ s.halt = false ∧ s.tickEn = true ∧
      s.tickp = true ∧ i.reset = false ∧ i.host = none ∧ s.env.inputs = i :: rest) ∧
    (∃ (s : State) (i : Instant) (rest : List Instant), s.busy = false ∧ s.halt = false ∧ s.tickEn = true ∧
      s.tickp = false ∧ i.tick = true ∧ i.reset = false ∧ i.host = none ∧ s.env.inputs = i :: rest) :=
  ⟨⟨ticking [Instant.quiet], _, _, rfl, rfl, rfl, rfl, rfl, rfl, rfl⟩,
   ⟨{ fresh [{ tick := true }] with tickEn := true }, _, _, rfl, rfl, rfl, rfl, rfl, rfl, rfl, rfl⟩⟩

/-- Y6, its command GETTIME, and ILLEGAL. -/
theorem witness_CommandBeforeTick :
    (∃ (s : State) (rest : List Instant), Ready s ∧ s.tickEn = true ∧ s.tickp = true ∧ (∀ i ∈ rest, i.reset = false) ∧
      s.env.inputs = { host := some (.write addrCmd 0x24) } :: rest) ∧
    (∃ (s : State) (rest : List Instant), Ready s ∧ s.tickEn = true ∧ s.tickp = true ∧ (∀ i ∈ rest, i.reset = false) ∧
      s.env.inputs = { host := some (.write addrCmd 0xFF) } :: rest ∧ rest = []) :=
  ⟨⟨ticking (cmdWrite 0x24 :: readTrace 0x08 0x10 1 (time 0x10 1)), _, ⟨rfl, rfl, rfl, rfl⟩, rfl, rfl, by decide, rfl⟩,
   ⟨ticking [cmdWrite 0xFF], [], ⟨rfl, rfl, rfl, rfl⟩, rfl, rfl, by decide, rfl, rfl⟩⟩

theorem witness_ErrorCodes :
    (∃ (s t : State) (c : Byte), Ready s ∧ execIllegal c s = .next t) ∧
    (∃ (s t : State), Ready s ∧ NoReset s ∧ s.cursor.nextIdx < s.capacity ∧ exec .chkdueN s = .next t ∧ t.err = 7) ∧
    (∃ (s t : State), Ready s ∧ NoReset s ∧ s.capacity = 0 ∧ exec .chkdueN s = .next t ∧ t.err = 6) :=
  ⟨⟨fresh [], _, 0xFF, fresh_ready _, rfl⟩,
   ⟨store 5 ⟨100, 0⟩ 0 [] (readTrace 0x08 0x10 1 (time 0x24 0)), _, store_ready .., by unfold NoReset; decide, by decide, rfl,
      by decide⟩,
   ⟨fresh (readTrace 0x08 0x10 1 (time 0x07 1)), _, fresh_ready _, by unfold NoReset; decide, rfl, rfl, by decide⟩⟩

/-- Its clauses on a pass, for a tick run, and on a command and a tick run still under way. -/
theorem witness_FailFlag_due :
    (∃ (s t : State) (d : DueBy), Ready s ∧ NoReset s ∧ d.May s ∧ d.run s = .next t ∧ d = .tick ∧ t.busy = false ∧
      t.fail = true) ∧
    (∃ s t : State, Ready s ∧ NoReset s ∧ exec .gettime s = .next t ∧ t.busy = true ∧ s.fail = true) ∧
    (∃ (s t : State) (d : DueBy), Ready s ∧ NoReset s ∧ d.May s ∧ d.run s = .next t ∧ d = .tick ∧ t.busy = true) :=
  ⟨⟨ticking [.answer 0xF8 0], _, .tick, ⟨rfl, rfl, rfl, rfl⟩, by unfold NoReset; decide, fun _ => ⟨rfl, rfl⟩, rfl, rfl,
      by decide, by decide⟩,
   ⟨{ fresh [.answer 0x08 0] with fail := true }, _, ⟨rfl, rfl, rfl, rfl⟩, by unfold NoReset; decide, rfl, by decide,
      rfl⟩,
   ⟨ticking [.answer 0x08 0], _, .tick, ⟨rfl, rfl, rfl, rfl⟩, by unfold NoReset; decide, fun _ => ⟨rfl, rfl⟩, rfl, rfl,
      by decide⟩⟩

theorem witness_FailFlag :
    ∃ s t : State, Ready s ∧ NoReset s ∧ exec .loadcfg s = .next t ∧ t.busy = false ∧ t.fail = true :=
  ⟨fresh [.answer 0xF8 0], _, fresh_ready _, by unfold NoReset; decide, rfl, by decide, by decide⟩

theorem witness_TransferFrame :
    ∃ (s t : State) (x : Xfer), Ready s ∧ NoReset s ∧ s.xfer? .bwrite = some x ∧ exec .bwrite s = .next t :=
  ⟨bus 200 0xD0 0 1 (writeTrace 0x08 2 1), _, _, bus_ready .., by unfold NoReset; decide, rfl, rfl⟩

theorem witness_ProfileFrame :
    ∃ s t : State, Ready s ∧ NoReset s ∧ exec .gettime s = .next t :=
  ⟨fresh (readTrace 0x08 0x10 1 (time 0x10 1)), _, fresh_ready _, by unfold NoReset; decide, rfl⟩

theorem witness_RecordFrame :
    ∃ s t : State, Ready s ∧ NoReset s ∧ exec .cntvalid s = .next t :=
  ⟨store 5 ⟨0, 0⟩ 0 [] (recordsTrace 2 plainStarts [rec 0 0, noRec]), _, store_ready .., by unfold NoReset; decide, rfl⟩

theorem witness_CheckDueFrame :
    (∃ s t : State, Ready s ∧ NoReset s ∧ DueBy.May .init s ∧ DueBy.run .init s = .next t) ∧
    (∃ s t : State, Ready s ∧ NoReset s ∧ DueBy.May .tick s ∧ DueBy.run .tick s = .next t ∧ t.busy = false) :=
  ⟨⟨store 5 ⟨540, 0⟩ 0 [] (readTrace 0x08 0x10 1 (time 0x09 1) ++ brokenRead 0x08 0x30), _, store_ready ..,
      by unfold NoReset; decide, (nomatch ·), rfl⟩,
   ⟨ticking [.answer 0xF8 0], _, ⟨rfl, rfl, rfl, rfl⟩, by unfold NoReset; decide, fun _ => ⟨rfl, rfl⟩, rfl, by decide⟩⟩

/-- With a host access and a TICK edge in the trace, and without. -/
theorem witness_FlagFrame :
    (∃ s t : State, Ready s ∧ NoReset s ∧ ¬ NoHost s ∧ ¬ NoTick s ∧ exec .bread s = .next t) ∧
    (∃ s t : State, Ready s ∧ NoReset s ∧ NoHost s ∧ NoTick s ∧ exec .chkdueN s = .next t ∧ t.busy = false) :=
  ⟨⟨bus 200 0xD0 0 0 [{ host := some (.write addrCtrl 2), tick := true }], _, bus_ready .., by unfold NoReset; decide,
      by unfold NoHost; decide, by unfold NoTick; decide, rfl⟩,
   ⟨fresh [.answer 0xF8 0], _, fresh_ready _, by unfold NoReset; decide, by unfold NoHost; decide,
      by unfold NoTick; decide, rfl, by decide⟩⟩

/-- Its clauses on a step: a tick pending in a busy block; an edge in a halted block. -/
theorem witness_FlagFrame_step :
    (∃ s t : State, NoReset s.ahead ∧ step s = .next t ∧ s.busy = true ∧ s.tickp = true ∧ t.busy = true) ∧
    (∃ (s t : State) (i : Instant) (rest : List Instant), s.env.inputs = i :: rest ∧ i.reset = false ∧ i.tick = true ∧
      s.halt = true ∧ s.tickEn = false ∧ step s = .next t) :=
  ⟨⟨{ under .start 0 1 [.answer 0x08 0] with tickp := true }, _, by unfold NoReset; decide, rfl, rfl, rfl, by decide⟩,
   ⟨{ fresh [{ tick := true }] with halt := true }, _, _, _, rfl, rfl, rfl, rfl, rfl, rfl⟩⟩

theorem witness_CapacityOnlyByLoadCfg :
    ∃ s t : State, NoReset s.ahead ∧ s.seq.task ≠ .loadCfg ∧ (∀ c s', fetchCommand s = some (c, s') → c ≠ 0x25) ∧
      step s = .next t :=
  ⟨fresh [cmdWrite 0x00], _, by unfold NoReset; decide, by decide,
    fun c _ h => by
      have hc : (0x00 : Byte) = c := congrArg Prod.fst (Option.some.inj h)
      subst hc; decide,
    rfl⟩

theorem witness_IdleRead :
    ∃ (s : State) (a : HostAddr), s.busy = false ∧ s.tickReady = false ∧
      s.env.inputs = { host := some (.read a) } :: [] :=
  ⟨fresh [{ host := some (.read 0x1FF) }], 0x1FF, rfl, rfl, rfl⟩

theorem witness_HostReadsHaveNoEffect :
    ∃ s t u : State, step s = .next t ∧ step s.forgetReads = .next u :=
  ⟨fresh [{ host := some (.read 0) }], _, _, rfl, rfl⟩

/-- Its three clauses at the ends of their ranges. -/
theorem witness_ReservedAddresses :
    (∃ a b : HostAddr, 0x024 ≤ a ∧ a ≤ 0x0FF ∧ a = 0x024 ∧ 0x024 ≤ b ∧ b ≤ 0x0FF ∧ b = 0x0FF) ∧
    (∃ (s : State) (a : HostAddr), s.busy = false ∧ s.tickReady = false ∧ (0x00B ≤ a ∧ a ≤ 0x0FF) ∧
      s.env.inputs = { host := some (.write a 7) } :: []) :=
  ⟨⟨0x024, 0x0FF, by decide, by decide, rfl, by decide, by decide, rfl⟩,
   ⟨fresh [{ host := some (.write 0x00B 7) }], 0x00B, rfl, rfl, by decide, rfl⟩⟩

theorem witness_WriteReadBack :
    (∃ (s : State) (a : HostAddr), s.busy = false ∧ s.tickReady = false ∧ (0x004 ≤ a ∧ a ≤ 0x007) ∧
      s.env.inputs = { host := some (.write a 7) } :: []) ∧
    (∃ (s : State) (a : HostAddr), s.busy = false ∧ s.tickReady = false ∧ 0x100 ≤ a ∧ a = 0x1FF ∧
      s.env.inputs = { host := some (.write a 7) } :: []) :=
  ⟨⟨fresh [{ host := some (.write 0x007 7) }], 0x007, rfl, rfl, by decide, rfl⟩,
   ⟨fresh [{ host := some (.write 0x1FF 7) }], 0x1FF, rfl, rfl, by decide, rfl, rfl⟩⟩

/-- Its clause on `CTRL`: Y3's `OVRCLR`, and Y5's write that starts the tick run. -/
theorem witness_WriteReadBack_ctrl :
    (∃ (s s' : State) (v : Byte), s.busy = false ∧
      s' = { s with tickEn := v.getLsbD 0, halt := s.halt || v.getLsbD 1, ovr := s.ovr && !v.getLsbD 2 } ∧
      s.env.inputs = { host := some (.write 0x002 v) } :: [] ∧ s.ovr = true ∧ s.tickp = false) ∧
    (∃ (s s' : State) (v : Byte), s.busy = false ∧
      s' = { s with tickEn := v.getLsbD 0, halt := s.halt || v.getLsbD 1, ovr := s.ovr && !v.getLsbD 2 } ∧
      s.env.inputs = { host := some (.write 0x002 v) } :: [] ∧ s'.tickEn = true ∧ s'.halt = false ∧ s.tickp = true) :=
  ⟨⟨{ fresh [{ host := some (.write 0x002 4) }] with ovr := true }, _, 4, rfl, rfl, rfl, rfl, rfl⟩,
   ⟨{ fresh [{ host := some (.write 0x002 1) }] with tickp := true }, _, 1, rfl, rfl, rfl, rfl, rfl, rfl⟩⟩

theorem under_waiting (ins : List Instant) : Waiting (under .start 0 1 ins) := ⟨rfl, .inr ⟨.start, rfl, by decide⟩⟩

/-- One state for each of its four clauses. -/
theorem witness_BusyHostAccess :
    (∃ s : State, Waiting s ∧ s.env.inputs = { host := some (.write 0x000 0x25) } :: []) ∧
    (∃ s : State, Waiting s ∧ s.env.inputs = { host := some (.write 0x002 7) } :: []) ∧
    (∃ s : State, Waiting s ∧ s.env.inputs = { host := some (.read 0x001) } :: []) ∧
    (∃ s : State, Waiting s ∧ s.env.inputs = { host := some (.read 0x100) } :: []) :=
  ⟨⟨_, under_waiting [{ host := some (.write 0x000 0x25) }], rfl⟩,
   ⟨_, under_waiting [{ host := some (.write 0x002 7) }], rfl⟩, ⟨_, under_waiting [{ host := some (.read 0x001) }], rfl⟩,
   ⟨_, under_waiting [{ host := some (.read 0x100) }], rfl⟩⟩

/-- A transaction at its START under an environment that answers `ST_ARB_LOST` without end (R157, R313). -/
def endlessLoss : State :=
  let s := under .start 0 1 []
  { s with env := { s.env with cycle := [.answer stArbLost 0] } }

/-- R157: five steps of it are five losses, and `BUSY` stays 1. -/
theorem test_endless_loss :
    ∃ t, steps 5 endlessLoss = .next t ∧ t.busy = true ∧ t.env.prims = List.replicate 5 PrimEvent.lostStart ∧
      t.bte.iter = 0 :=
  ⟨_, rfl, rfl, rfl, rfl⟩

theorem witness_WaitsForEver :
    (∃ s : State, Waiting s ∧ s.seq.task.transmitting = false ∧ s.env.inputs = [] ∧ s.env.cycle = []) ∧
    (∃ s : State, Waiting s ∧ s.seq.task.transmitting = true ∧ s.env.inputs = [] ∧ s.env.cycle = []) ∧
    (∃ s p, Outstanding s p ∧ s.env.inputs = [] ∧ s.env.cycle = [.answer stArbLost 0]) :=
  ⟨⟨_, under_waiting [], rfl, rfl, rfl⟩,
   ⟨{ fresh [] with busy := true, seq := { Seq.reset with task := .dueTx false } }, ⟨rfl, .inl rfl⟩, rfl, rfl, rfl⟩,
   ⟨endlessLoss, .start, ⟨rfl, rfl, rfl, by decide⟩, rfl, rfl⟩⟩

theorem witness_HaltIsFinal :
    ∃ s t : State, NoReset s.ahead ∧ s.halt = true ∧ s.busy = false ∧ step s = .next t :=
  ⟨{ ticking [cmdWrite 0x41] with halt := true }, _, by unfold NoReset; decide, rfl, rfl, rfl⟩

theorem witness_ResetValues :
    ∃ (s : State) (i : Instant), i.reset = true ∧ s.busy = true ∧ s.env.inputs = i :: [] :=
  ⟨under .rdata 1 2 [{ reset := true, host := some (.write 0 0x41), tick := true }], _, rfl, rfl, rfl⟩

/-- A state in the middle of a Read that satisfies the invariant. -/
theorem witness_StepKeepsInv : ∃ s t : State, Inv s ∧ step s = .next t :=
  ⟨under .rdata 1 2 [.answer 0x58 0xA2], _,
    { cfg := by decide, lastMin := by decide, capacity := by decide, nextIdx := by decide, iter := by decide,
      iterLive := by decide, bidx := by decide, bidxData := by decide, bidxDone := by decide, code := by decide,
      idle := by decide, running := by decide, txReq := rfl, scan := by decide, count := by decide, loadCfg := by decide,
      err := by decide, dbuf := by decide },
    rfl⟩

/-- Every operand at the end of its range; an omitted operand. -/
theorem witness_LineSetsOperands :
    (∃ l : Line, l.wf = true ∧ l.dev = some (127, 2) ∧ l.off = some 65535 ∧ l.len = some 255 ∧ l.data = some [0, 255]) ∧
    (∃ l : Line, l.wf = true ∧ l.idx = some 65535 ∧ l.dev = none) :=
  ⟨⟨{ instr := .bwrite, dev := some (127, 2), off := some 65535, len := some 255, data := some [0, 255] }, by decide,
      rfl, rfl, rfl, rfl⟩,
   ⟨{ instr := .rdrec, idx := some 65535 }, by decide, rfl, rfl⟩⟩

end Sys2Proof.Tests
end

section
/-! The conventions of spec/00_scope.md: `bcd` (R15). -/

namespace Sys2Proof.Machine

/-! ## The two digits of a byte -/

theorem toNat_extractLsb'_high_nibble (b : Byte) : (b.extractLsb' 4 4).toNat = (b >>> 4).toNat := by
  have := b.isLt
  rw [BitVec.extractLsb'_toNat, BitVec.toNat_ushiftRight, Nat.shiftRight_eq_div_pow]
  omega

theorem toNat_extractLsb'_low_nibble (b : Byte) : (b.extractLsb' 0 4).toNat = (b &&& 0x0F).toNat := by
  rw [BitVec.extractLsb'_toNat, BitVec.toNat_and, Nat.shiftRight_zero]
  exact (Nat.and_two_pow_sub_one_eq_mod b.toNat 4).symm

/-! ## `bcd` -/

/-- The factor of `bcd`, which its definition writes as a cast, as an 8-bit literal. -/
theorem bcd_eq (b : Byte) : bcd b = 10#8 * (b >>> 4) + (b &&& 0x0F) := rfl

/-- The 8-bit sum of `bcd` never wraps: each digit is at most 15, so the sum is at most 165. -/
theorem toNat_bcd (b : Byte) : (bcd b).toNat = 10 * (b.extractLsb' 4 4).toNat + (b.extractLsb' 0 4).toNat := by
  have hhigh := (b.extractLsb' 4 4).isLt
  have hlow := (b.extractLsb' 0 4).isLt
  rw [toNat_extractLsb'_high_nibble] at hhigh ⊢
  rw [toNat_extractLsb'_low_nibble] at hlow ⊢
  rw [bcd_eq, BitVec.toNat_add, BitVec.toNat_mul, BitVec.toNat_ofNat]
  omega

/-- Settles O25: the value is `toNat_bcd`; both bounds follow from the widths of the two digits. -/
theorem bcdValue : Obligations.BcdValue := by
  intro b
  have hhigh := (b.extractLsb' 4 4).isLt
  have hlow := (b.extractLsb' 0 4).isLt
  refine ⟨toNat_bcd b, ?_, fun hhigh9 hlow9 => ?_⟩ <;> rw [toNat_bcd] <;> omega

end Sys2Proof.Machine
end

section
/-! How a step is made up: every command is `accept` of its byte with a body of its own, and every step is one
instant, in which RESET, a busy block, a `CMD` write and the other host accesses are told apart. -/

namespace Sys2Proof.Machine

/-! ### Commands -/

/-- What the command does once it is accepted, before its run takes an instant (R262). -/
def commandBody (i : Instr) (s : State) : State :=
  match i with
  | .nop => s.complete false
  | .bread => s.transfer (fun s => s.memRead s.opDev s.opAw s.ops.off s.ops.len)
  | .bwrite => s.transfer (fun s => s.memWrite s.opDev s.opAw s.ops.off s.ops.len)
  | .clkread => s.transfer (fun s => s.memRead s.cfg.clockDev clockAw s.ops.off s.ops.len)
  | .clkwrite => s.transfer (fun s => s.memWrite s.cfg.clockDev clockAw s.ops.off s.ops.len)
  | .memread => s.transfer (fun s => s.memRead s.cfg.memDev s.memAw s.ops.off s.ops.len)
  | .memwrite => s.transfer (fun s => s.memWrite s.cfg.memDev s.memAw s.ops.off s.ops.len)
  | .gettime => State.readTime { s with seq := { s.seq with task := .getTime } }
  | .loadcfg =>
    State.memRead s.cfg.clockDev clockAw (s.cfg.hwinfoOff.setWidth 16) Config.hwinfoLen
      { s.zeroCursor with seq := { s.seq with task := .loadCfg } }
  | .rdrec => State.readRecord s.ops.idx (State.complete true) { s with seq := { s.seq with task := .rdRec } }
  | .wrrec => State.writeRecord s.ops.idx (State.complete true) { s with seq := { s.seq with task := .wrRec } }
  | .cntvalid => State.countNext { s with seq := { s.seq with task := .cntValid, cidx := 0 } }
  | .chkdueN => s.checkDue .normal
  | .chkdueI => s.checkDue .init

/-- The model's arm of every command. -/
theorem exec_eq_accept (i : Instr) (s : State) :
    exec i s = .next (accept (encodeByte i) (commandBody i) s) := by
  cases i <;> rfl

/-- What an accepted byte does: the body of the command it decodes to, or ILLEGAL (R106, R261). -/
def byteBody (c : Byte) (s : State) : State :=
  match decodeByte c with
  | .ok i => commandBody i s
  | .error _ => (s.raise .illCmd).complete true

theorem decodeByte_encodeByte (i : Instr) : decodeByte (encodeByte i) = .ok i := by
  cases i <;> rfl

/-- Every row of the table compares all eight bits with the byte of its command (R101). -/
theorem opTable_row : ∀ r ∈ opTable, r.mask = 0xFF ∧ r.pattern = encodeByte r.instr := by decide

theorem encodeByte_of_decodeByte {c : Byte} {i : Instr} (h : decodeByte c = .ok i) : encodeByte i = c := by
  unfold decodeByte at h
  split at h
  · next r hr =>
    obtain ⟨hmask, hpat⟩ := opTable_row r (List.mem_of_find?_eq_some hr)
    have hc := List.find?_some hr
    rw [hmask, beq_iff_eq, hpat] at hc
    have hall : c &&& 0xFF = c := BitVec.and_allOnes
    rw [← Except.ok.inj h, ← hc, hall]
  · cases h

theorem byteBody_encodeByte (i : Instr) : byteBody (encodeByte i) = commandBody i := by
  funext s; simp [byteBody, decodeByte_encodeByte]

/-! ### Instants -/

/-- One instant of the outside, whatever the block does: `react`, and the `CMD` write to an idle block. -/
def instant (i : Instant) (s : State) : State :=
  if i.reset then resetInstant i s
  else if s.busy then busyInstant i s
  else
    match i.cmdWrite? with
    | some c => accept c (byteBody c) (s.latchTick i.tick)
    | none => idleInstant i s

theorem instant_reset {i : Instant} (h : i.reset = true) (s : State) : instant i s = resetInstant i s := by
  simp [instant, h]

theorem instant_busy {i : Instant} {s : State} (hr : i.reset = false) (hb : s.busy = true) :
    instant i s = busyInstant i s := by
  simp [instant, hr, hb]

theorem instant_command {i : Instant} {s : State} {c : Byte} (hr : i.reset = false) (hb : s.busy = false)
    (hc : i.cmdWrite? = some c) : instant i s = accept c (byteBody c) (s.latchTick i.tick) := by
  simp [instant, hr, hb, hc]

theorem instant_idle {i : Instant} {s : State} (hr : i.reset = false) (hb : s.busy = false)
    (hc : i.cmdWrite? = none) : instant i s = idleInstant i s := by
  simp [instant, hr, hb, hc]

/-- Where no `CMD` write reaches an idle block, the instant is `react`. -/
theorem instant_eq_react {i : Instant} {s : State} (h : i.reset = true ∨ s.busy = true ∨ i.cmdWrite? = none) :
    instant i s = react i s := by
  unfold instant react
  split
  · rfl
  · split
    · rfl
    · next hr hb =>
      have hc : i.cmdWrite? = none := by simpa [hr, hb] using h
      rw [hc]

theorem step_nil {s : State} (h : s.env.upcoming = []) : step s = .next (instant Instant.quiet s) := by
  rw [instant_eq_react (.inr (.inr rfl))]
  simp [step, fetchCommand, nextInstant, h]

/-- A fetched byte is accepted with its body (R31, R101, R106, R262). -/
theorem step_fetch {s u : State} {c : Byte} (h : fetchCommand s = some (c, u)) :
    step s = .next (accept c (byteBody c) u) := by
  cases hd : decodeByte c with
  | ok j =>
    have hc := encodeByte_of_decodeByte hd
    have hs : step s = exec j u := by simp [step, h, hd]
    rw [hs, exec_eq_accept, ← hc, byteBody_encodeByte]
  | error e =>
    have hs : step s = execIllegal c u := by simp [step, h, hd]
    have hbody : byteBody c = fun s => (s.raise .illCmd).complete true := by funext v; simp [byteBody, hd]
    rw [hs, hbody]
    rfl

theorem step_upcoming {s : State} {i : Instant} {rest : List Instant} (h : s.env.upcoming = i :: rest) :
    step s = .next (instant i (s.withInputs rest)) := by
  by_cases hrb : (i.reset || s.busy) = true
  · have hrb' : i.reset = true ∨ s.busy = true := by simpa using hrb
    rw [instant_eq_react (s := s.withInputs rest) (hrb'.imp_right .inl)]
    simp [step, fetchCommand, nextInstant, h, hrb]
  · obtain ⟨hr, hb⟩ : i.reset = false ∧ s.busy = false := by simpa using hrb
    cases hc : i.cmdWrite? with
    | none =>
      rw [instant_eq_react (.inr (.inr hc))]
      simp [step, fetchCommand, nextInstant, h, hr, hb, hc]
    | some c =>
      rw [instant_command (s := s.withInputs rest) hr hb hc]
      exact step_fetch (by simp [fetchCommand, h, hr, hb, hc])

/-- A step whose next instant is listed. -/
theorem step_listed {s : State} {i : Instant} {rest : List Instant} (h : s.env.inputs = i :: rest) :
    step s = .next (instant i (s.withInputs rest)) :=
  step_upcoming (by simp [Env.upcoming, h])

/-- A step is one instant, the next one ahead, or a quiet one where nothing is ahead. -/
theorem step_eq_instant (s : State) :
    ∃ i rest, (s.env.upcoming = i :: rest ∨ (s.env.upcoming = [] ∧ i = Instant.quiet ∧ rest = [])) ∧
      step s = .next (instant i (s.withInputs rest)) := by
  cases hu : s.env.upcoming with
  | nil =>
    have hin : s.env.inputs = [] := by
      rcases upcoming_cases s.env with ⟨hin, _⟩ | ⟨_, he⟩
      · exact hin
      · rw [← he, hu]
    refine ⟨Instant.quiet, [], .inr ⟨rfl, rfl, rfl⟩, ?_⟩
    rw [step_nil hu, ← hin, withInputs_self]
  | cons i rest => exact ⟨i, rest, .inl rfl, step_upcoming hu⟩

/-- What holds of the instants ahead and of a quiet one holds of those a step takes. -/
theorem step_eq_instant_of_forall {Q : Instant → Prop} (hq : Q Instant.quiet) {s : State}
    (h : ∀ i ∈ s.env.upcoming, Q i) :
    ∃ i rest, Q i ∧ (∀ j ∈ rest, Q j) ∧ step s = .next (instant i (s.withInputs rest)) := by
  obtain ⟨i, rest, hu | ⟨_, rfl, rfl⟩, hs⟩ := step_eq_instant s
  · rw [hu] at h
    exact ⟨i, rest, h i List.mem_cons_self, fun j hj => h j (List.mem_cons_of_mem _ hj), hs⟩
  · exact ⟨_, _, hq, by simp, hs⟩

end Sys2Proof.Machine
end

section
/-! What the sequencer does between two waits: `Acts` lists the actions of the operations, and every way in which an
operation gets control (a command's body, a transaction's end, an acknowledged transmission) is a chain of them. What
holds of every operation is proved by induction on `Acts`. -/

namespace Sys2Proof.Machine

/-! ### The operations -/

/-- The operation a task belongs to: the tasks of a CheckDue pass are one. -/
def Task.op : Task → Task
  | .dueScan _ => .dueTime
  | .dueTx _ => .dueTime
  | t => t

/-- `Acts s t`: an operation that has control in `s` may give it back in `t`, completed, or waiting for the bus or for
the transmit sink. The premises say which operation acts so, and what it has tested. -/
inductive Acts : State → State → Prop where
  /-- Completion of any operation but a CheckDue pass (R263). -/
  | complete {s : State} (failed : Bool) (ht : s.seq.task.op ≠ .dueTime) : Acts s (s.complete failed)
  /-- CNTVALID ends with its count (R204). -/
  | endCount {s : State} (n : Half) (ht : s.seq.task = .cntValid) : Acts s (s.endCount n)
  /-- The time read failed, or read a bad time (R222, R223). -/
  | failPass {s : State} (ht : s.seq.task = .dueTime) : Acts s (s.completePass true)
  /-- A pass that scans nothing: the minute of the last pass, or an empty store (R224, R231). -/
  | noScan {s : State} (q : Seq) (ht : s.seq.task = .dueTime) (hgood : s.dt.bad = false) (hcur : q.cur = s.dt.minuteOfDay)
      (hmode : q.mode = s.seq.mode) (hcidx : q.cidx = s.seq.cidx) : Acts s (State.endPass { s with seq := q })
  /-- A pass ends after its scans (R226). -/
  | endPass {s : State} (more : Bool) (ht : s.seq.task = .dueScan more) : Acts s s.endPass
  /-- A due record goes to the transmit port (R235). -/
  | transmit {s : State} (more : Bool) (ht : s.seq.task = .dueScan more) (hmode : s.seq.mode = .normal) :
      Acts s (s.transmit more)
  /-- A transaction begins: of a slot that exists in a scan or a count, a Write for WRREC, at most ten bytes but for the
  transfer commands. -/
  | xfer {s : State} (kind : XKind) (dev : DevAddr) (aw : BitVec 2) (off : Half) (n : Byte) (hidle : s.seq.task ≠ .idle)
      (htx : s.seq.task.transmitting = false)
      (hscan : s.seq.task.scanning = true → s.cursor.nextIdx < s.capacity)
      (hcount : s.seq.task = .cntValid → s.seq.cidx < s.capacity) (hwr : s.seq.task = .wrRec → kind = .wr)
      (hlen : s.seq.task = .transfer ∨ n ≤ 10) : Acts s (s.startXfer kind dev aw off n)
  /-- A failure is raised (R275 (1)). -/
  | raise {s t : State} (c : FailCode) (next : Acts (s.raise c) t) : Acts s t
  /-- The time read has succeeded (R185). -/
  | latchTime {s t : State} (ht : s.seq.task = .getTime ∨ s.seq.task = .dueTime) (next : Acts s.latchTime t) : Acts s t
  /-- LOADCFG's results (R187). -/
  | load {s t : State} (hw : HwInfo) (cap : Half) (ok : Bool) (ht : s.seq.task = .loadCfg)
      (hcap : cap ≤ maxCapacity s.cfg.memAw2) (next : Acts { s with hw := hw, capacity := cap, cfgok := ok } t) : Acts s t
  /-- CNTVALID goes on to the next record (R204). -/
  | countUp {s t : State} (ht : s.seq.task = .cntValid) (next : Acts { s with seq := { s.seq with cidx := s.seq.cidx + 1 } } t) :
      Acts s t
  /-- The first window's scan is entered (R224, R225, R230). -/
  | window {s t : State} (more : Bool) (wfrom wto : Minute) (ht : s.seq.task = .dueTime) (hgood : s.dt.bad = false)
      (hwto : wto = s.dt.minuteOfDay ∨ wto = Config.dayMinutes) (hidx : s.cursor.nextIdx < s.capacity)
      (next : Acts (State.enterScan more wfrom wto { s with seq := { s.seq with cur := s.dt.minuteOfDay } }) t) : Acts s t
  /-- The second window's scan is entered (R225). -/
  | rescan {s t : State} (ht : s.seq.task = .dueScan true) (next : Acts (s.enterScan false 0 s.seq.cur) t) : Acts s t
  /-- The scan moves the cursor (R232, R236). -/
  | moveCursor {s t : State} (more : Bool) (n : Half) (ht : s.seq.task = .dueScan more)
      (hn : n = 0 ∨ n = nextAfter s.capacity s.cursor.nextIdx)
      (next : Acts { s with cursor := { s.cursor with nextIdx := n } } t) : Acts s t
  /-- The sink has acknowledged (R47). -/
  | acked {s t : State} (more : Bool) (ht : s.seq.task = .dueTx more)
      (next : Acts
        { s with tx := { s.tx with req := false },
                 seq := { s.seq with task := .dueScan more },
                 env := { s.env with txs := s.env.txs ++ [⟨s.tx.major, s.tx.minor, s.tx.cmd⟩] } } t) : Acts s t

/-! ### The record store's operations -/

theorem acts_memRead {s : State} {dev : DevAddr} {aw : BitVec 2} {off : Half} {n : Byte} (hidle : s.seq.task ≠ .idle)
    (htx : s.seq.task.transmitting = false) (hscan : s.seq.task.scanning = true → s.cursor.nextIdx < s.capacity)
    (hcount : s.seq.task = .cntValid → s.seq.cidx < s.capacity) (hwr : s.seq.task ≠ .wrRec)
    (hlen : s.seq.task = .transfer ∨ n ≤ 10) : Acts s (s.memRead dev aw off n) :=
  .xfer .rd dev aw off n hidle htx hscan hcount (fun h => absurd h hwr) hlen

/-- `ReadRecord` for RDREC. -/
theorem acts_readRecord {s : State} (ht : s.seq.task = .rdRec) (i : Half) :
    Acts s (s.readRecord i (State.complete true)) := by
  by_cases h : s.capacity ≤ i
  · rw [readRecord_outOfRange h]
    exact .raise .range (.complete (s := s.raise .range) true (by rw [raise_seq, ht]; decide))
  · rw [readRecord_inRange (BitVec.not_le.1 h)]
    exact acts_memRead (by simp [ht]) (by simp [ht, Task.transmitting]) (by simp [ht, Task.scanning]) (by simp [ht])
      (by simp [ht]) (.inr (by decide))

theorem writeLen_le (s : State) : s.writeLen ≤ 10 := by
  unfold State.writeLen; split <;> decide

/-- `WriteRecord` for WRREC. -/
theorem acts_writeRecord {s : State} (ht : s.seq.task = .wrRec) (i : Half) :
    Acts s (s.writeRecord i (State.complete true)) := by
  by_cases h : s.capacity ≤ i
  · rw [writeRecord_outOfRange h]
    exact .raise .range (.complete (s := s.raise .range) true (by rw [raise_seq, ht]; decide))
  · rw [writeRecord_inRange (BitVec.not_le.1 h)]
    exact .xfer .wr _ _ _ _ (by simp [ht]) (by simp [ht, Task.transmitting]) (by simp [ht, Task.scanning])
      (by simp [ht]) (fun _ => rfl) (.inr (writeLen_le s))

theorem acts_countNext {s : State} (ht : s.seq.task = .cntValid) : Acts s s.countNext := by
  rcases countNext_cases s with ⟨hlt, he⟩ | ⟨_, he⟩ <;> rw [he]
  · exact acts_memRead (by simp [ht]) (by simp [ht, Task.transmitting]) (by simp [ht, Task.scanning]) (fun _ => hlt)
      (by simp [ht]) (.inr (by decide))
  · exact .endCount _ ht

/-- What a record operation sees of its transaction is `s` itself, or `s` with a failure raised. -/
theorem acts_recordResult {s t : State} {r : XferResult} (h : Acts (recordResult r s).1 t) : Acts s t := by
  rcases recordResult_cases r s with ⟨_, _, he⟩ | ⟨_, _, he⟩ | ⟨_, he⟩ <;> rw [he] at h
  · exact h
  · exact .raise .incomplete h
  · exact h

theorem recordResult_seq (r : XferResult) (s : State) : (recordResult r s).1.seq = s.seq := by
  rcases recordResult_cases r s with ⟨_, _, he⟩ | ⟨_, _, he⟩ | ⟨_, he⟩ <;> rw [he]

/-! ### The scan -/

/-- The fetch of the last window (R231). -/
theorem acts_fetchLast {s : State} (ht : s.seq.task = .dueScan false) : Acts s s.fetchLast := by
  unfold State.fetchLast
  by_cases h : s.capacity ≤ s.cursor.nextIdx
  · rw [readRecord_outOfRange h]
    exact .raise .range (.endPass (s := s.raise .range) false ht)
  · rw [readRecord_inRange (BitVec.not_le.1 h)]
    exact acts_memRead (by simp [ht]) (by simp [ht, Task.transmitting]) (fun _ => BitVec.not_le.1 h) (by simp [ht])
      (by simp [ht]) (.inr (by decide))

theorem acts_endScan {s : State} {more : Bool} (ht : s.seq.task = .dueScan more) : Acts s (s.endScan more) := by
  cases more with
  | true => exact .rescan ht (acts_fetchLast rfl)
  | false => exact .endPass false ht

theorem acts_fetch {s : State} {more : Bool} (ht : s.seq.task = .dueScan more) : Acts s (s.fetch more) := by
  unfold State.fetch
  by_cases h : s.capacity ≤ s.cursor.nextIdx
  · rw [readRecord_outOfRange h]
    exact .raise .range (acts_endScan (s := s.raise .range) ht)
  · rw [readRecord_inRange (BitVec.not_le.1 h)]
    exact acts_memRead (by simp [ht]) (by simp [ht, Task.transmitting]) (fun _ => BitVec.not_le.1 h) (by simp [ht])
      (by simp [ht]) (.inr (by decide))

theorem acts_advance {s : State} {more : Bool} (ht : s.seq.task = .dueScan more) : Acts s (s.advance more) := by
  rcases advance_cases more s with ⟨_, he⟩ | ⟨_, he⟩ <;> rw [he]
  · exact .moveCursor more _ ht (.inr rfl) (acts_endScan (by exact ht))
  · exact .moveCursor more _ ht (.inr rfl) (acts_fetch (by exact ht))

theorem acts_scanInvalid {s : State} {more : Bool} (ht : s.seq.task = .dueScan more) : Acts s (s.scanInvalid more) := by
  rcases scanInvalid_cases more s with ⟨_, he⟩ | ⟨_, _, he⟩ | ⟨_, _, he⟩ <;> rw [he]
  · exact acts_endScan ht
  · exact .moveCursor more _ ht (.inl rfl) (acts_endScan (by exact ht))
  · exact .moveCursor more _ ht (.inl rfl) (acts_fetch (by exact ht))

theorem acts_scanRecord {s : State} {more : Bool} (ht : s.seq.task = .dueScan more) : Acts s (s.scanRecord more) := by
  rcases scanRecord_cases more s with ⟨_, he⟩ | ⟨_, _, he⟩ | ⟨_, _, _, hm, he⟩ | ⟨_, _, _, he⟩ <;> rw [he]
  · exact acts_scanInvalid ht
  · exact acts_endScan ht
  · exact .transmit more ht hm
  · exact acts_advance ht

/-- A scan of an empty store raises `E_RANGE` and ends the pass, in the first window and in the second (R231). -/
theorem fetch_outOfRange {s : State} (h : s.capacity ≤ s.cursor.nextIdx) (more : Bool) :
    ∃ q : Seq, q.cur = s.seq.cur ∧ q.mode = s.seq.mode ∧ q.cidx = s.seq.cidx ∧
      s.fetch more = State.endPass { s.raise .range with seq := q } := by
  unfold State.fetch
  rw [readRecord_outOfRange h]
  cases more with
  | false => exact ⟨s.seq, rfl, rfl, rfl, rfl⟩
  | true =>
    refine ⟨{ s.seq with task := .dueScan false, sstart := s.cursor.nextIdx, wfrom := 0, wto := s.seq.cur }, rfl, rfl,
      rfl, ?_⟩
    exact readRecord_outOfRange
      (s := State.enterScan false 0 s.seq.cur { s with err := 6 }) h State.endPass

/-- Steps 3 to 5 of a pass (R224, R225, R227). -/
theorem acts_windows {s : State} (ht : s.seq.task = .dueTime) (hgood : s.dt.bad = false) : Acts s s.windows := by
  have hscan : ∀ (more : Bool) (wfrom wto : Minute), wto = s.dt.minuteOfDay ∨ wto = Config.dayMinutes →
      Acts s ((State.enterScan more wfrom wto { s with seq := { s.seq with cur := s.dt.minuteOfDay } }).fetch more) := by
    intro more wfrom wto hwto
    by_cases h : s.capacity ≤ s.cursor.nextIdx
    · obtain ⟨q, hcur, hmode, hcidx, he⟩ :=
        fetch_outOfRange
          (s := State.enterScan more wfrom wto { s with seq := { s.seq with cur := s.dt.minuteOfDay } }) h more
      rw [he]
      exact .raise .range (.noScan (s := s.raise .range) q ht hgood hcur hmode hcidx)
    · exact .window more wfrom wto ht hgood hwto (BitVec.not_le.1 h) (acts_fetch rfl)
  unfold State.windows
  dsimp only
  split
  · exact .noScan _ ht hgood rfl rfl rfl
  · split
    · exact hscan false _ _ (.inl rfl)
    · exact hscan true _ _ (.inr rfl)

theorem acts_txDone {s : State} {more : Bool} (ht : s.seq.task = .dueTx more) : Acts s (s.txDone more) :=
  .acked more ht (acts_advance rfl)

/-! ### The end of a transaction -/

/-- `CAPACITY` after LOADCFG is within the build's bound (R188). -/
theorem capacityOf_le (memAw2 : Bool) (m : BitVec 32) : capacityOf memAw2 m ≤ maxCapacity memAw2 := by
  have hmin := Nat.min_le_right m.toNat (if memAw2 = true then 65536 else 256)
  have hdiv := Nat.div_le_div_right (c := 10) hmin
  rw [BitVec.le_def, capacityOf, BitVec.toNat_ofNat]
  refine Nat.le_trans (Nat.mod_le _ _) (Nat.le_trans hdiv ?_)
  cases memAw2 <;> decide

/-- The operation that ran a transaction acts on its result (R275 (3)). -/
theorem acts_finish (r : XferResult) {s : State} (hi : s.seq.task ≠ .idle) (htx : s.seq.task.transmitting = false) :
    Acts s (finish r s) := by
  cases ht : s.seq.task with
  | idle => exact absurd ht hi
  | dueTx more => rw [ht] at htx; cases htx
  | transfer =>
    simp only [finish, ht]
    cases r <;> exact .complete _ (by rw [ht]; decide)
  | getTime =>
    simp only [finish, ht]
    cases r with
    | ok => exact .latchTime (.inl ht) (.complete (s := s.latchTime) false (by rw [latchTime_seq, ht]; decide))
    | failed => exact .complete true (by rw [ht]; decide)
  | loadCfg =>
    simp only [finish, ht]
    cases r with
    | ok =>
      exact .load s.hwRecord _ true ht (capacityOf_le _ _) (.complete false (show s.seq.task.op ≠ _ by rw [ht]; decide))
    | failed =>
      exact .load s.hw 0 false ht (BitVec.le_def.2 (Nat.zero_le _)) (.complete true (show s.seq.task.op ≠ _ by rw [ht]; decide))
  | rdRec =>
    have hseq := recordResult_seq r s
    simp only [finish, ht, finishRdRec]
    refine acts_recordResult (r := r) ?_
    split <;> next he => rw [he] at hseq ⊢; exact .complete _ (by rw [hseq, ht]; decide)
  | wrRec =>
    simp only [finish, ht]
    cases r <;> exact .complete _ (by rw [ht]; decide)
  | cntValid =>
    have hseq := recordResult_seq r s
    simp only [finish, ht, finishCount]
    refine acts_recordResult (r := r) ?_
    split
    · next he => rw [he] at hseq ⊢; exact .endCount 0 (by rw [hseq, ht])
    · next he =>
      rw [he] at hseq ⊢
      split
      · exact .countUp (by rw [hseq, ht]) (acts_countNext (by rw [hseq, ht]))
      · exact .endCount _ (by rw [hseq, ht])
  | dueTime =>
    simp only [finish, ht, finishDueTime]
    cases r with
    | failed => exact .failPass ht
    | ok =>
      refine .latchTime (.inr ht) ?_
      cases hbad : s.decodedTime.bad
      · exact acts_windows ht hbad
      · exact .raise .badTime (.failPass ht)
  | dueScan more =>
    have hseq := recordResult_seq r s
    simp only [finish, ht, finishScan]
    refine acts_recordResult (r := r) ?_
    split
    · next he => rw [he] at hseq ⊢; exact acts_endScan (by rw [hseq, ht])
    · next he => rw [he] at hseq ⊢; exact acts_scanRecord (by rw [hseq, ht])

/-- No operation stands in the other two tasks, and nothing is done there (log entry 15). -/
theorem finish_none (r : XferResult) {s : State} (h : s.seq.task = .idle ∨ s.seq.task.transmitting = true) :
    finish r s = s := by
  cases ht : s.seq.task <;> simp [ht, Task.transmitting] at h <;> simp [finish, ht]

end Sys2Proof.Machine
end

section
/-! Frames. What no operation changes, what only one operation changes, and what becomes of `TICKP` and of `DBUF`: each
fact for the actions of the operations (`Acts`), for a primitive taken by the engine, for a busy instant, for a run. -/

namespace Sys2Proof.Machine

/-! ### A primitive taken by the engine -/

/-- `BIDX` stands inside the transaction's data, below its end where a data byte is due (R43). -/
structure Bte.Fits (b : Bte) : Prop where
  le : b.bidx ≤ b.xlen.setWidth 9
  data : b.pstate = .rdata ∨ b.pstate = .wdata → b.bidx < b.xlen.setWidth 9
  done : b.pstate = .stopOk → b.bidx = b.xlen.setWidth 9

/-- A Write that no status has led astray into the states of a Read. -/
structure Bte.Writing (b : Bte) : Prop where
  kind : b.xkind = .wr
  noRead : b.pstate ≠ .rstart ∧ b.pstate ≠ .slar ∧ b.pstate ≠ .rdata

theorem Bte.atEnd_iff (b : Bte) : b.atEnd = true ↔ b.bidx = b.xlen.setWidth 9 := by simp [Bte.atEnd]

/-- What the engine makes of one primitive: nothing outside `DBUF`, `ERR`, its own registers and the history changes, and
a byte of `DBUF` is written only where a received one is due. -/
structure EngineStep (s u : State) : Prop where
  frame : u = { s with err := u.err, dbuf := u.dbuf, bte := u.bte, env := { s.env with prims := u.env.prims } }
  xlen : u.bte.xlen = s.bte.xlen
  fits : s.bte.Fits → u.bte.Fits
  writing : s.bte.Writing → u.bte.Writing
  dbuf : u.dbuf = s.dbuf ∨
    (s.bte.pstate = .rdata ∧ s.bte.atEnd = false ∧ ∃ d, u.dbuf = Memory.write s.dbuf s.bte.bufIndex.toNat d)

theorem EngineStep.refl (s : State) : EngineStep s s := ⟨rfl, rfl, id, id, .inl rfl⟩

theorem bidx_succ_le {b : Bte} (hle : b.bidx ≤ b.xlen.setWidth 9) (he : b.atEnd = false) :
    b.bidx + 1 ≤ b.xlen.setWidth 9 := by
  have hne : b.bidx ≠ b.xlen.setWidth 9 := by simpa [Bte.atEnd] using he
  bv_omega

/-- A request other than STOP is made by a protocol state that is under way, and in a data state only before its end. -/
theorem live_of_request {s : State} {p : Prim} (h : s.request = some p) (hp : p ≠ .stop) :
    s.bte.pstate.live = true ∧ (s.bte.pstate = .rdata ∨ s.bte.pstate = .wdata → s.bte.atEnd = false) := by
  unfold State.request at h
  cases hps : s.bte.pstate <;> simp [hps, PState.live] at h ⊢
  · exact h.1
  · exact h.1
  · exact absurd h.symm hp
  · exact absurd h.symm hp

/-- Where `Continue` leads from a state that is under way (R153). -/
theorem verdict_cont_cases {cfg : Params} {b : Bte} {st : Byte} {p : PState} (hl : b.pstate.live = true)
    (h : verdict cfg b st = .cont p) :
    (b.pstate = .start ∧ p = .slaw) ∨
    (b.pstate = .slaw ∧ st = stSlawAck ∧ (p = .addrH ∨ p = .addrL)) ∨
    (b.pstate = .addrH ∧ p = .addrL) ∨
    (b.pstate = .addrL ∧ b.xkind = .rd ∧ p = .rstart) ∨
    (b.pstate = .addrL ∧ b.xkind = .wr ∧ p = .wdata) ∨
    (b.pstate = .rstart ∧ p = .slar) ∨
    (b.pstate = .slar ∧ p = .rdata) ∨
    (b.pstate = .rdata ∧ p = .rdata) ∨
    (b.pstate = .wdata ∧ p = .wdata) := by
  cases hps : b.pstate <;> simp only [hps, PState.live, Bool.false_eq_true] at hl <;> simp only [verdict, hps] at h <;>
    cases hk : b.xkind <;> grind

/-- An abort's code is one of the BusFailure codes (R132, R271). -/
theorem verdict_abort_code {cfg : Params} {b : Bte} {st : Byte} {c : FailCode} (h : verdict cfg b st = .abort c) :
    c = .retry ∨ c = .byteNack ∨ c = .status := by
  cases hps : b.pstate <;> simp only [verdict, hps] at h <;> grind

/-- What an inspected status does to the data phase: a byte moves, in or out, or none does (R146, R149). -/
theorem observe_data (st d : Byte) (s : State) :
    ((s.observe st d).dbuf = s.dbuf ∧ (s.observe st d).bte.bidx = s.bte.bidx) ∨
    (s.bte.pstate = .rdata ∧ (s.observe st d).dbuf = Memory.write s.dbuf s.bte.bufIndex.toNat d ∧
      (s.observe st d).bte.bidx = s.bte.bidx + 1) ∨
    (s.bte.pstate = .wdata ∧ (s.observe st d).dbuf = s.dbuf ∧ (s.observe st d).bte.bidx = s.bte.bidx + 1) := by
  cases hps : s.bte.pstate <;> simp [State.observe, hps, Bte.bufIndex] <;> split <;> simp

/-- What an inspected status leaves of the engine. -/
theorem observe_bte (st d : Byte) (s : State) :
    (s.observe st d).bte.pstate = s.bte.pstate ∧ (s.observe st d).bte.xlen = s.bte.xlen ∧
      (s.observe st d).bte.xkind = s.bte.xkind := by
  cases hps : s.bte.pstate <;> simp [State.observe, hps] <;> split <;> simp

/-- `ITER` counts the select-NACKs (R137). -/
theorem observe_iter (st d : Byte) (s : State) :
    (s.observe st d).bte.iter =
      if s.bte.pstate = .slaw ∧ st = stSlawNack then s.bte.iter + 1 else s.bte.iter := by
  cases hps : s.bte.pstate <;> simp [State.observe, hps] <;> split <;> simp

/-- `Continue(p)`: to the STOP where a data phase is over, else to `p`. -/
theorem enter_pstate (p : PState) (s : State) :
    ((p = .rdata ∨ p = .wdata) ∧ s.bte.bidx = s.bte.xlen.setWidth 9 ∧
      s.enter p = { s with bte := { s.bte with pstate := .stopOk } }) ∨
    ((p = .rdata ∨ p = .wdata → s.bte.bidx ≠ s.bte.xlen.setWidth 9) ∧
      s.enter p = { s with bte := { s.bte with pstate := p } }) := by
  unfold State.enter
  split
  · next h => exact .inl ⟨h.1, (Bte.atEnd_iff _).1 h.2, rfl⟩
  · next h => exact .inr ⟨fun hp he => h ⟨hp, (Bte.atEnd_iff _).2 he⟩, rfl⟩

theorem observe_bidx_le (st d : Byte) {s : State} (h : s.bte.Fits)
    (hd : s.bte.pstate = .rdata ∨ s.bte.pstate = .wdata → s.bte.atEnd = false) :
    (s.observe st d).bte.bidx ≤ s.bte.xlen.setWidth 9 := by
  rcases observe_data st d s with ⟨_, hb⟩ | ⟨hps, _, hb⟩ | ⟨hps, _, hb⟩ <;> rw [hb]
  · exact h.le
  · exact bidx_succ_le h.le (hd (.inl hps))
  · exact bidx_succ_le h.le (hd (.inr hps))

/-- `Continue` leads a Write nowhere near the states of a Read. -/
theorem verdict_cont_writing {cfg : Params} {b : Bte} {st : Byte} {p : PState} (hl : b.pstate.live = true)
    (h : verdict cfg b st = .cont p) (hw : b.Writing) : p ≠ .rstart ∧ p ≠ .slar ∧ p ≠ .rdata := by
  obtain ⟨hk, hrs, hsl, hrd⟩ := hw
  rcases verdict_cont_cases hl h with ⟨_, rfl⟩ | ⟨_, _, rfl | rfl⟩ | ⟨_, rfl⟩ | ⟨_, hk', _⟩ | ⟨_, _, rfl⟩ | ⟨hps, _⟩ |
    ⟨hps, _⟩ | ⟨hps, _⟩ | ⟨_, rfl⟩
  case inr.inr.inr.inl => rw [hk] at hk'; cases hk'
  case inr.inr.inr.inr.inr.inl => exact absurd hps hrs
  case inr.inr.inr.inr.inr.inr.inl => exact absurd hps hsl
  case inr.inr.inr.inr.inr.inr.inr.inl => exact absurd hps hrd
  all_goals decide

theorem verdict_cont_stopOk {cfg : Params} {b : Bte} {st : Byte} {p : PState} (hl : b.pstate.live = true)
    (h : verdict cfg b st = .cont p) : p ≠ .stopOk := by
  rcases verdict_cont_cases hl h with ⟨_, rfl⟩ | ⟨_, _, rfl | rfl⟩ | ⟨_, rfl⟩ | ⟨_, _, rfl⟩ | ⟨_, _, rfl⟩ | ⟨_, rfl⟩ |
    ⟨_, rfl⟩ | ⟨_, rfl⟩ | ⟨_, rfl⟩ <;> decide

/-- A status is taken in two parts: it is observed, and the engine's own registers, and `ERR`, follow. -/
theorem engineStep_of_observe (st d : Byte) {s v : State}
    (hd : s.bte.pstate = .rdata ∨ s.bte.pstate = .wdata → s.bte.atEnd = false)
    (hf : v = { s.observe st d with err := v.err, bte := v.bte })
    (hxl : v.bte.xlen = (s.observe st d).bte.xlen)
    (hfits : (s.observe st d).bte.bidx ≤ (s.observe st d).bte.xlen.setWidth 9 → v.bte.Fits)
    (hwr : (s.observe st d).bte.Writing → v.bte.Writing) : EngineStep s v := by
  obtain ⟨hps, hoxl, hk⟩ := observe_bte st d s
  have hob := observe_frame st d s
  have hdbuf : v.dbuf = (s.observe st d).dbuf := by rw [hf]
  refine ⟨?_, hxl.trans hoxl, fun h => hfits ?_, fun h => hwr ⟨hk.trans h.kind, by rw [hps]; exact h.noRead⟩, ?_⟩
  · rw [hf, hob]
  · rw [hoxl]; exact observe_bidx_le st d h hd
  · rw [hdbuf]
    rcases observe_data st d s with ⟨hm, _⟩ | ⟨hr, hm, _⟩ | ⟨_, hm, _⟩
    · exact .inl hm
    · exact .inr ⟨hr, hd (.inl hr), d, hm⟩
    · exact .inl hm

/-- The engine takes a status, whichever way it goes on. -/
theorem engineStep_bteStatus (st d : Byte) {s : State} (hl : s.bte.pstate.live = true)
    (hd : s.bte.pstate = .rdata ∨ s.bte.pstate = .wdata → s.bte.atEnd = false) :
    EngineStep s (bteStatus st d s).1 := by
  unfold bteStatus
  have habort : ∀ c, EngineStep s ((s.observe st d).abort c) := fun c =>
    engineStep_of_observe st d hd rfl rfl (fun h => ⟨h, by simp, by simp⟩) (fun h => ⟨h.kind, by simp⟩)
  split
  · next p hv =>
    rcases enter_pstate p (s.observe st d) with ⟨_, hend, he⟩ | ⟨hdata, he⟩ <;> dsimp only <;> rw [he]
    · exact engineStep_of_observe st d hd rfl rfl (fun h => ⟨h, by simp, fun _ => hend⟩) (fun h => ⟨h.kind, by simp⟩)
    · refine engineStep_of_observe st d hd rfl rfl
        (fun h => ⟨h, fun hp => by have := hdata hp; bv_omega, fun hp => absurd hp (verdict_cont_stopOk hl hv)⟩)
        (fun h => ⟨h.kind, verdict_cont_writing hl hv ⟨?_, ?_⟩⟩)
      · rw [← (observe_bte st d s).2.2]; exact h.kind
      · rw [← (observe_bte st d s).1]; exact h.noRead
  · exact engineStep_of_observe st d hd rfl rfl
      (fun _ => ⟨BitVec.le_def.2 (Nat.zero_le _), by simp, by simp⟩) (fun h => ⟨h.kind, by simp⟩)
  · exact habort _
  · split
    · exact habort _
    · exact engineStep_of_observe st d hd rfl rfl (fun h => ⟨h, by simp [State.exitNoStop], by simp [State.exitNoStop]⟩)
        (fun h => ⟨h.kind, by simp [State.exitNoStop]⟩)

/-- A primitive more in the history changes nothing else. -/
theorem EngineStep.of_logPrim {s u : State} {e : PrimEvent} (h : EngineStep (s.logPrim e) u) : EngineStep s u :=
  ⟨h.frame, h.xlen, h.fits, h.writing, h.dbuf⟩

/-- The STOP (R150, R151). -/
theorem engineStep_bteStop (s : State) : EngineStep s (bteStop s).1 := by
  have hidle : ∀ n e, EngineStep s { s with err := e, bte := { s.bte with count := n, pstate := .idle } } := fun n e =>
    ⟨rfl, rfl, fun h => ⟨h.le, by simp, by simp⟩, fun h => ⟨h.kind, by simp⟩, .inl rfl⟩
  rcases bteStop_cases s with ⟨_, he⟩ | ⟨_, he⟩ <;> rw [he] <;> exact hidle _ _

/-- A state without a request: no transaction runs, or a data phase is over and goes on to its STOP (log entry 15). -/
theorem engineStep_enter {s : State} (h : s.request = none) : EngineStep s (s.enter s.bte.pstate) := by
  have hps : s.bte.pstate = .idle ∨ s.bte.pstate = .rdata ∨ s.bte.pstate = .wdata := by
    unfold State.request at h
    cases hps : s.bte.pstate <;> simp [hps] at h ⊢
  rcases enter_pstate s.bte.pstate s with ⟨hp, hend, he⟩ | ⟨hdata, he⟩ <;> rw [he]
  · exact ⟨rfl, rfl, fun h => ⟨h.le, by simp, fun _ => hend⟩, fun h => ⟨h.kind, by simp⟩, .inl rfl⟩
  · exact EngineStep.refl s

/-! ### One step of the sequencer -/

theorem takeStatus_none {p : Prim} {st d : Byte} {s : State}
    (h : (bteStatus st d (s.logPrim ⟨p, some st, p.returns d⟩)).2 = none) :
    takeStatus p st d s = (bteStatus st d (s.logPrim ⟨p, some st, p.returns d⟩)).1 := by
  rcases hb : bteStatus st d (s.logPrim ⟨p, some st, p.returns d⟩) with ⟨u, res⟩
  rw [hb] at h
  cases h
  simp only [takeStatus, hb]

theorem takeStatus_some {p : Prim} {st d : Byte} {s : State} {r : XferResult}
    (h : (bteStatus st d (s.logPrim ⟨p, some st, p.returns d⟩)).2 = some r) :
    takeStatus p st d s = finish r (bteStatus st d (s.logPrim ⟨p, some st, p.returns d⟩)).1 := by
  rcases hb : bteStatus st d (s.logPrim ⟨p, some st, p.returns d⟩) with ⟨u, res⟩
  rw [hb] at h
  cases h
  simp only [takeStatus, hb]

/-- A step of the sequencer is a primitive taken by the engine, and then, where it gets control, the actions of the
operation. -/
theorem seqStep_acts (i : Instant) (s : State) :
    ∃ u, EngineStep s u ∧ (seqStep i s = u ∨ Acts u (seqStep i s)) := by
  have hfinish : ∀ (r : XferResult) (u : State), finish r u = u ∨ Acts u (finish r u) := fun r u => by
    by_cases h : u.seq.task = .idle ∨ u.seq.task.transmitting = true
    · exact .inl (finish_none r h)
    · exact .inr (acts_finish r (fun hi => h (.inl hi)) (by simpa using fun ht => h (.inr ht)))
  rcases seqStep_cases i s with he | ⟨more, ht, he⟩ | ⟨hr, he⟩ | ⟨_, he⟩ | ⟨p, st, d, hr, hp, _, he⟩ <;> rw [he]
  · exact ⟨s, .refl s, .inl rfl⟩
  · exact ⟨s, .refl s, .inr (acts_txDone ht)⟩
  · exact ⟨_, engineStep_enter hr, .inl rfl⟩
  · exact ⟨_, (engineStep_bteStop _).of_logPrim, hfinish _ _⟩
  · obtain ⟨hl, hd⟩ := live_of_request hr hp
    refine ⟨_, (engineStep_bteStatus st d (s := s.logPrim ⟨p, some st, p.returns d⟩) hl hd).of_logPrim, ?_⟩
    cases hres : (bteStatus st d (s.logPrim ⟨p, some st, p.returns d⟩)).2 with
    | none => exact .inl (takeStatus_none hres)
    | some r => rw [takeStatus_some hres]; exact hfinish _ _

end Sys2Proof.Machine
end

section
/-! Frames: what an operation, a step and a run leave unchanged (R34, R53, R189, R269). -/

namespace Sys2Proof.Machine

/-! ### What no operation changes, and what only one does -/

/-- The frame of an operation `o`, whatever the host and TICK do meanwhile. Each field is by default proved for an action
that does not touch it. -/
structure Frame (o : Task) (s t : State) : Prop where
  cfg : t.cfg = s.cfg := by rfl
  cmd : t.cmd = s.cmd := by rfl
  src : t.src = s.src := by rfl
  ops : t.ops = s.ops := by rfl
  mode : t.seq.mode = s.seq.mode := by rfl
  resets : t.env.resets = s.env.resets := by rfl
  /-- The operation stays the same until it is over. -/
  task : t.seq.task.op = s.seq.task.op ∨ t.seq.task = .idle := by exact .inl rfl
  /-- Only CNTVALID counts. -/
  count : o ≠ .cntValid → t.res = s.res ∧ t.seq.cidx = s.seq.cidx := by exact fun _ => ⟨rfl, rfl⟩
  /-- Only LOADCFG configures. -/
  config : o ≠ .loadCfg → t.capacity = s.capacity ∧ t.cfgok = s.cfgok ∧ t.hw = s.hw := by exact fun _ => ⟨rfl, rfl, rfl⟩
  /-- Only the two time reads set the time. -/
  time : o ≠ .getTime → o ≠ .dueTime → t.dt = s.dt := by exact fun _ _ => rfl
  /-- Only CheckDue scans. -/
  scan : o ≠ .dueTime → t.cursor = s.cursor ∧ t.tx = s.tx ∧ t.env.txs = s.env.txs ∧
    t.seq = { s.seq with task := t.seq.task, cidx := t.seq.cidx } := by exact fun _ => ⟨rfl, rfl, rfl, rfl⟩
  /-- The transmit history only grows. -/
  txs : ∃ new, t.env.txs = s.env.txs ++ new := by exact ⟨[], (List.append_nil _).symm⟩
  /-- In mode Init nothing is transmitted. -/
  silent : s.seq.mode = .init → s.seq.task.transmitting = false →
    t.seq.task.transmitting = false ∧ t.tx = s.tx ∧ t.env.txs = s.env.txs := by exact fun _ h => ⟨h, rfl, rfl⟩

theorem Frame.refl (o : Task) (s : State) : Frame o s s := {}

theorem Frame.trans {o : Task} {s t u : State} (h : Frame o s t) (h' : Frame o t u) : Frame o s u where
  cfg := h'.cfg.trans h.cfg
  cmd := h'.cmd.trans h.cmd
  src := h'.src.trans h.src
  ops := h'.ops.trans h.ops
  mode := h'.mode.trans h.mode
  resets := h'.resets.trans h.resets
  task := by
    rcases h'.task with ho | hi
    · rcases h.task with ho' | hi'
      · exact .inl (ho.trans ho')
      · rw [hi'] at ho
        exact .inr (by cases hu : u.seq.task <;> simp [hu, Task.op] at ho ⊢)
    · exact .inr hi
  count := fun ho => ⟨(h'.count ho).1.trans (h.count ho).1, (h'.count ho).2.trans (h.count ho).2⟩
  config := fun ho => by
    obtain ⟨hc, hk, hw⟩ := h.config ho
    obtain ⟨hc', hk', hw'⟩ := h'.config ho
    exact ⟨hc'.trans hc, hk'.trans hk, hw'.trans hw⟩
  time := fun hg hd => (h'.time hg hd).trans (h.time hg hd)
  scan := fun ho => by
    obtain ⟨hc, ht, hx, hq⟩ := h.scan ho
    obtain ⟨hc', ht', hx', hq'⟩ := h'.scan ho
    refine ⟨hc'.trans hc, ht'.trans ht, hx'.trans hx, ?_⟩
    rw [hq] at hq'
    exact hq'
  txs := by
    obtain ⟨new, hn⟩ := h.txs
    obtain ⟨new', hn'⟩ := h'.txs
    exact ⟨new ++ new', by rw [hn', hn, List.append_assoc]⟩
  silent := fun hm ht => by
    obtain ⟨ht', htx, hx⟩ := h.silent hm ht
    obtain ⟨ht'', htx', hx'⟩ := h'.silent (h.mode.trans hm) ht'
    exact ⟨ht'', htx'.trans htx, hx'.trans hx⟩

/-- `TICKP` under an operation: a completed CheckDue pass clears it, nothing else writes it (R246). -/
structure TickFrame (s t : State) : Prop where
  other : s.seq.task.op ≠ .dueTime → t.tickp = s.tickp
  due : s.seq.task.op = .dueTime → s.busy = true → t.tickp = if t.busy then s.tickp else false
  /-- The block is busy with that operation until it is over. -/
  stay : t.busy = true → t.seq.task.op = s.seq.task.op

/-- The fields that only the host port writes. -/
structure HostFrame (s t : State) : Prop where
  tickEn : t.tickEn = s.tickEn
  halt : t.halt = s.halt
  ovr : t.ovr = s.ovr
  reads : t.env.reads = s.env.reads
  draws : t.env.draws = s.env.draws

theorem HostFrame.trans {s t u : State} (h : HostFrame s t) (h' : HostFrame t u) : HostFrame s u :=
  ⟨h'.tickEn.trans h.tickEn, h'.halt.trans h.halt, h'.ovr.trans h.ovr, h'.reads.trans h.reads, h'.draws.trans h.draws⟩

theorem Acts.hostFrame {s t : State} (h : Acts s t) : HostFrame s t := by
  induction h
  case complete | endCount | failPass | noScan | endPass | transmit | xfer => exact ⟨rfl, rfl, rfl, rfl, rfl⟩
  case raise ih | latchTime ih | load ih | countUp ih | window ih | rescan ih | moveCursor ih | acked ih =>
    exact ⟨ih.tickEn, ih.halt, ih.ovr, ih.reads, ih.draws⟩

theorem Acts.inputs {s t : State} (h : Acts s t) : t.env.inputs = s.env.inputs := by
  induction h
  case complete | endCount | failPass | noScan | endPass | transmit | xfer => rfl
  case raise ih | latchTime ih | load ih | countUp ih | window ih | rescan ih | moveCursor ih | acked ih => exact ih

theorem Acts.dbuf {s t : State} (h : Acts s t) : t.dbuf = s.dbuf := by
  induction h
  case complete | endCount | failPass | noScan | endPass | transmit | xfer => rfl
  case raise ih | latchTime ih | load ih | countUp ih | window ih | rescan ih | moveCursor ih | acked ih => exact ih

/-- The operation completes a pass, and clears `TICKP`, or leaves the block busy, and `TICKP` as it is. -/
theorem Acts.tickFrame {s t : State} (h : Acts s t) : TickFrame s t := by
  induction h with
  | complete failed ht => exact ⟨fun _ => rfl, fun hd => absurd hd ht, nofun⟩
  | endCount n ht => exact ⟨fun _ => rfl, fun hd => (by rw [ht] at hd; cases hd), nofun⟩
  | failPass ht | noScan _ ht | endPass _ ht => exact ⟨fun ho => absurd (by rw [ht]; rfl) ho, fun _ _ => rfl, nofun⟩
  | transmit more ht => exact ⟨fun _ => rfl, fun _ hb => (if_pos hb).symm, fun _ => by rw [ht]; rfl⟩
  | xfer => exact ⟨fun _ => rfl, fun _ hb => (if_pos hb).symm, fun _ => rfl⟩
  | raise _ _ ih | latchTime _ _ ih | load _ _ _ _ _ _ ih | countUp _ _ ih | moveCursor _ _ _ _ _ ih =>
    exact ⟨ih.other, ih.due, ih.stay⟩
  | window _ _ _ ht _ _ _ _ ih | rescan ht _ ih | acked _ ht _ ih =>
    exact ⟨fun ho => absurd (by rw [ht]; rfl) ho, fun _ => ih.due rfl, fun hb => (ih.stay hb).trans (by rw [ht]; rfl)⟩

theorem Acts.frame {s t : State} (h : Acts s t) : Frame s.seq.task.op s t := by
  induction h with
  | complete | failPass => exact { task := .inr rfl, silent := fun _ _ => ⟨rfl, rfl, rfl⟩ }
  | endCount n ht =>
    exact { task := .inr rfl, count := fun ho => absurd (by rw [ht]; rfl) ho, silent := fun _ _ => ⟨rfl, rfl, rfl⟩ }
  | noScan q ht hgood hcur hmode hcidx =>
    exact { task := .inr rfl, mode := hmode, count := fun _ => ⟨rfl, hcidx⟩,
            scan := fun ho => absurd (by rw [ht]; rfl) ho, silent := fun _ _ => ⟨rfl, rfl, rfl⟩ }
  | endPass more ht =>
    exact { task := .inr rfl, scan := fun ho => absurd (by rw [ht]; rfl) ho, silent := fun _ _ => ⟨rfl, rfl, rfl⟩ }
  | transmit more ht hmode =>
    exact { task := .inl (by rw [ht]; rfl), scan := fun ho => absurd (by rw [ht]; rfl) ho,
            silent := fun hi => by rw [hmode] at hi; cases hi }
  | xfer => exact {}
  | raise c _ ih =>
    refine .trans ?_ ih
    exact {}
  | latchTime ht _ ih =>
    refine .trans ?_ ih
    exact { time := fun hg hd => absurd ht (by rintro (h | h) <;> simp [h, Task.op] at hg hd) }
  | load hw cap ok ht _ _ ih =>
    refine .trans ?_ ih
    exact { config := fun ho => absurd (by rw [ht]; rfl) ho }
  | countUp ht _ ih =>
    refine .trans ?_ ih
    exact { count := fun ho => absurd (by rw [ht]; rfl) ho }
  | window more wfrom wto ht _ _ _ _ ih =>
    rw [ht]
    refine .trans ?_ ih
    exact { task := .inl (by rw [ht]; rfl), scan := fun ho => absurd rfl ho, silent := fun _ _ => ⟨rfl, rfl, rfl⟩ }
  | rescan ht _ ih =>
    rw [ht]
    refine .trans ?_ ih
    exact { task := .inl (by rw [ht]; rfl), scan := fun ho => absurd rfl ho, silent := fun _ _ => ⟨rfl, rfl, rfl⟩ }
  | moveCursor more n ht _ _ ih =>
    refine .trans ?_ ih
    exact { scan := fun ho => absurd (by rw [ht]; rfl) ho }
  | acked more ht _ ih =>
    rw [ht]
    refine .trans ?_ ih
    exact { task := .inl (by rw [ht]; rfl), scan := fun ho => absurd rfl ho, txs := ⟨_, rfl⟩,
            silent := fun _ h => by rw [ht] at h; cases h }

/-! ### One instant of a busy block -/

theorem EngineStep.op_frame {s u : State} (h : EngineStep s u) (o : Task) : Frame o s u := by
  rw [h.frame]; exact {}

theorem EngineStep.seq {s u : State} (h : EngineStep s u) : u.seq = s.seq := by rw [h.frame]

theorem EngineStep.busy {s u : State} (h : EngineStep s u) : u.busy = s.busy := by rw [h.frame]

theorem EngineStep.tickp {s u : State} (h : EngineStep s u) : u.tickp = s.tickp := by rw [h.frame]

theorem seqStep_frame (i : Instant) (s : State) : Frame s.seq.task.op s (seqStep i s) := by
  obtain ⟨u, he, hu | ha⟩ := seqStep_acts i s
  · rw [hu]; exact he.op_frame _
  · exact .trans (he.op_frame _) (by rw [← he.seq]; exact ha.frame)

theorem seqStep_hostFrame (i : Instant) (s : State) : HostFrame s (seqStep i s) := by
  obtain ⟨u, he, hu⟩ := seqStep_acts i s
  have hs : HostFrame s u := by rw [he.frame]; exact ⟨rfl, rfl, rfl, rfl, rfl⟩
  rcases hu with hu | ha
  · rw [hu]; exact hs
  · exact .trans hs ha.hostFrame

theorem seqStep_tickFrame (i : Instant) (s : State) : TickFrame s (seqStep i s) := by
  obtain ⟨u, he, hu | ha⟩ := seqStep_acts i s
  · rw [hu]; exact ⟨fun _ => he.tickp, fun _ hb => by rw [he.tickp, he.busy, hb]; rfl, fun _ => by rw [he.seq]⟩
  · obtain ⟨hother, hdue, hstay⟩ := ha.tickFrame
    rw [he.seq, he.tickp] at hother hdue
    rw [he.busy] at hdue
    rw [he.seq] at hstay
    exact ⟨hother, hdue, hstay⟩

theorem onHost_busyHost_frame (o : Task) (i : Instant) (s : State) : Frame o s (i.onHost State.busyHost s) := by
  unfold Instant.onHost
  split
  · next h _ =>
    rcases busyHost_cases h s with ⟨a, v, he⟩ | ⟨a, he⟩ | ⟨v, he⟩ | he <;> rw [he] <;> exact {}
  · exact {}

/-- The host access of an instant touches nothing the sequencer looks at. -/
theorem onHost_busyHost_seq (i : Instant) (s : State) :
    (i.onHost State.busyHost s).seq = s.seq ∧ (i.onHost State.busyHost s).bte = s.bte ∧
      (i.onHost State.busyHost s).dbuf = s.dbuf ∧ (i.onHost State.busyHost s).busy = s.busy ∧
      (i.onHost State.busyHost s).tickp = s.tickp := by
  unfold Instant.onHost
  split
  · next h _ =>
    rcases busyHost_cases h s with ⟨a, v, he⟩ | ⟨a, he⟩ | ⟨v, he⟩ | he <;> rw [he] <;> exact ⟨rfl, rfl, rfl, rfl, rfl⟩
  · exact ⟨rfl, rfl, rfl, rfl, rfl⟩

theorem busyInstant_noReset {i : Instant} (hr : i.reset = false) (s : State) :
    busyInstant i s = State.latchTick i.tick (seqStep i (i.onHost State.busyHost s)) := by
  simp [busyInstant, hr]

theorem busyInstant_frame {i : Instant} (hr : i.reset = false) (s : State) :
    Frame s.seq.task.op s (busyInstant i s) := by
  rw [busyInstant_noReset hr]
  refine .trans (onHost_busyHost_frame _ i s) (.trans (t := seqStep i (i.onHost State.busyHost s)) ?_ {})
  rw [← (onHost_busyHost_seq i s).1]
  exact seqStep_frame i _

theorem busyInstant_hostFrame {i : Instant} (hr : i.reset = false) (hh : i.host = none) (s : State) :
    HostFrame s (busyInstant i s) := by
  obtain ⟨hen, hha, hov, hrd, hdr⟩ := seqStep_hostFrame i s
  rw [busyInstant_noReset hr, Instant.onHost, hh]
  exact ⟨hen, hha, hov, hrd, hdr⟩

/-- `TICKP` over an instant without a TICK edge. -/
theorem busyInstant_tickFrame {i : Instant} (hr : i.reset = false) (ht : i.tick = false) (s : State) :
    TickFrame s (busyInstant i s) := by
  obtain ⟨hseq, _, _, hb, htp⟩ := onHost_busyHost_seq i s
  have h := seqStep_tickFrame i (i.onHost State.busyHost s)
  rw [busyInstant_noReset hr, ht, latchTick_false]
  obtain ⟨hother, hdue, hstay⟩ := h
  rw [hseq, htp] at hother hdue
  rw [hb] at hdue
  rw [hseq] at hstay
  exact ⟨hother, hdue, hstay⟩

/-- A pending tick stays pending over an instant, edge or not, unless a CheckDue pass completes. -/
theorem busyInstant_tickp_kept {i : Instant} (hr : i.reset = false) {s : State} (ht : s.tickp = true) (hb : s.busy = true)
    (h : s.seq.task.op ≠ .dueTime ∨ (busyInstant i s).busy = true) : (busyInstant i s).tickp = true := by
  obtain ⟨hseq, _, _, hb', htp⟩ := onHost_busyHost_seq i s
  obtain ⟨hother, hdue, _⟩ := seqStep_tickFrame i (i.onHost State.busyHost s)
  rw [hseq, htp, ht] at hother hdue
  rw [busyInstant_noReset hr] at h ⊢
  have hseqStep : (seqStep i (i.onHost State.busyHost s)).tickp = true := by
    by_cases ho : s.seq.task.op = .dueTime
    · have hbusy : (seqStep i (i.onHost State.busyHost s)).busy = true := h.resolve_left (fun hn => hn ho)
      rw [hdue ho (hb'.trans hb), if_pos hbusy]
    · exact hother ho
  simp [State.latchTick, hseqStep]

/-! ### Runs -/

theorem Frame.of_idle {s t : State} (h : Frame .idle s t) (o : Task) : Frame o s t :=
  { cfg := h.cfg, cmd := h.cmd, src := h.src, ops := h.ops, mode := h.mode, resets := h.resets, task := h.task,
    count := fun _ => h.count (by decide), config := fun _ => h.config (by decide),
    time := fun _ _ => h.time (by decide) (by decide), scan := fun _ => h.scan (by decide), txs := h.txs,
    silent := h.silent }

/-- The operation `o` is under way, or over. -/
def State.runs (s : State) (o : Task) : Prop := s.seq.task.op = o ∨ s.seq.task = .idle

theorem Frame.runs {o : Task} {s t : State} (h : Frame o s t) (hs : s.runs o) : t.runs o := by
  rcases h.task with he | hi
  · rcases hs with hs | hs
    · exact .inl (he.trans hs)
    · rw [hs] at he
      exact .inr (by cases ht : t.seq.task <;> simp [ht, Task.op] at he ⊢)
  · exact .inr hi

theorem busyInstant_frame_runs {o : Task} {i : Instant} (hr : i.reset = false) {s : State} (hs : s.runs o) :
    Frame o s (busyInstant i s) := by
  rcases hs with h | h
  · rw [← h]; exact busyInstant_frame hr s
  · have hf := busyInstant_frame hr s
    rw [h] at hf
    exact hf.of_idle o

/-- The frame of an operation over its whole run. -/
theorem run_frame {o : Task} {l : List Instant} (hl : ∀ i ∈ l, i.reset = false) {s : State} (hs : s.runs o) :
    Frame o s (run l s) := by
  refine (run_invariant (P := fun t => Frame o s t ∧ t.runs o) (Q := fun i => i.reset = false) rfl ?_ ?_ l hl s
    ⟨.refl o s, hs⟩).1
  · exact fun t ins h => ⟨.trans h.1 {}, h.2⟩
  · intro i t hr _ ⟨hf, ht⟩
    have hi := busyInstant_frame_runs hr ht
    exact ⟨hf.trans hi, hi.runs ht⟩

theorem run_hostFrame {l : List Instant} (hl : ∀ i ∈ l, i.reset = false ∧ i.host = none) (s : State) :
    HostFrame s (run l s) := by
  refine run_invariant (P := HostFrame s) (Q := fun i => i.reset = false ∧ i.host = none) ⟨rfl, rfl⟩ ?_ ?_ l hl s
    ⟨rfl, rfl, rfl, rfl, rfl⟩
  · exact fun t ins h => ⟨h.tickEn, h.halt, h.ovr, h.reads, h.draws⟩
  · exact fun i t hi _ h => h.trans (busyInstant_hostFrame hi.1 hi.2 t)

/-- An operation that is no CheckDue pass leaves `TICKP` alone. -/
theorem run_tickp_of_ne_due {o : Task} (ho : o ≠ .dueTime) {l : List Instant}
    (hl : ∀ i ∈ l, i.reset = false ∧ i.tick = false) {s : State} (hs : s.runs o) : (run l s).tickp = s.tickp := by
  refine (run_invariant (P := fun t => t.tickp = s.tickp ∧ t.runs o) (Q := fun i => i.reset = false ∧ i.tick = false)
    ⟨rfl, rfl⟩ ?_ ?_ l hl s ⟨rfl, hs⟩).1
  · exact fun t ins h => h
  · intro i t hi _ ⟨htp, ht⟩
    have hne : t.seq.task.op ≠ .dueTime := by
      rcases ht with h | h
      · rw [h]; exact ho
      · rw [h]; decide
    exact ⟨((busyInstant_tickFrame hi.1 hi.2 t).other hne).trans htp, (busyInstant_frame_runs hi.1 ht).runs ht⟩

/-- ... and keeps a pending tick, whatever edges come. -/
theorem run_tickp_kept {o : Task} (ho : o ≠ .dueTime) {l : List Instant} (hl : ∀ i ∈ l, i.reset = false) {s : State}
    (hs : s.runs o) (ht : s.tickp = true) : (run l s).tickp = true := by
  refine (run_invariant (P := fun t => t.tickp = true ∧ t.runs o) (Q := fun i => i.reset = false) rfl ?_ ?_ l hl s
    ⟨ht, hs⟩).1
  · exact fun t ins h => h
  · intro i t hr hb ⟨htp, hto⟩
    have hne : t.seq.task.op ≠ .dueTime := by
      rcases hto with h | h
      · rw [h]; exact ho
      · rw [h]; decide
    exact ⟨busyInstant_tickp_kept hr htp hb (.inl hne), (busyInstant_frame_runs hr hto).runs hto⟩

/-- A CheckDue pass clears `TICKP` when it is over, and not before (R246). -/
theorem run_tickp_due {l : List Instant} (hl : ∀ i ∈ l, i.reset = false ∧ i.tick = false) {s : State}
    (hs : s.seq.task.op = .dueTime) (hb : s.busy = true) :
    (run l s).tickp = if (run l s).busy then s.tickp else false := by
  refine (run_invariant
    (P := fun t => (t.tickp = if t.busy then s.tickp else false) ∧ (t.busy = true → t.seq.task.op = .dueTime))
    (Q := fun i => i.reset = false ∧ i.tick = false) ⟨rfl, rfl⟩ ?_ ?_ l hl s ⟨(if_pos hb).symm, fun _ => hs⟩).1
  · exact fun t ins h => h
  · intro i t hi htb ⟨htp, hto⟩
    have hf := busyInstant_tickFrame hi.1 hi.2 t
    rw [htb, if_pos rfl] at htp
    exact ⟨by rw [hf.due (hto htb) htb, htp], fun hb' => (hf.stay hb').trans (hto htb)⟩

/-! ### `DBUF` over a run -/

/-- A transaction of at most `n` bytes runs, or none. -/
structure Within (n : Byte) (s : State) : Prop where
  fits : s.bte.Fits
  len : s.bte.xlen ≤ n

theorem Bte.Fits.to_idle {b : Bte} (h : b.Fits) : Bte.Fits { b with pstate := .idle } :=
  ⟨h.le, by simp, by simp⟩

/-- Every transaction an operation begins has at most ten bytes, but for the transfer commands. -/
theorem Acts.within {s t : State} (h : Acts s t) {n : Byte} (hn : 10 ≤ n) (ho : s.seq.task.op ≠ .transfer)
    (hs : Within n s) : Within n t := by
  induction h with
  | complete | endCount | failPass | noScan | endPass => exact ⟨hs.fits.to_idle, hs.len⟩
  | transmit => exact ⟨hs.fits, hs.len⟩
  | xfer kind dev aw off m _ _ _ _ _ hlen =>
    have hm : m ≤ 10 := hlen.resolve_left fun ht => ho (by rw [ht]; rfl)
    exact ⟨⟨BitVec.le_def.2 (Nat.zero_le _), by simp, by simp⟩, BitVec.le_trans hm hn⟩
  | raise _ _ ih | latchTime _ _ ih | load _ _ _ _ _ _ ih | countUp _ _ ih | moveCursor _ _ _ _ _ ih =>
    exact ih ho ⟨hs.fits, hs.len⟩
  | window _ _ _ ht _ _ _ _ ih | rescan ht _ ih | acked _ ht _ ih => exact ih nofun ⟨hs.fits, hs.len⟩

theorem State.runs_wrRec {s : State} (h : s.runs .wrRec) : s.seq.task = .wrRec ∨ s.seq.task = .idle := by
  refine h.imp_left fun he => ?_
  cases ht : s.seq.task <;> simp [ht, Task.op] at he ⊢

/-- WRREC only writes to the bus. -/
theorem Acts.writing {s t : State} (h : Acts s t) (ht : s.seq.task = .wrRec ∨ s.seq.task = .idle) (hs : s.bte.Writing) :
    t.bte.Writing := by
  induction h with
  | complete | endCount | failPass | noScan | endPass => exact ⟨hs.kind, by simp⟩
  | transmit _ ht' | window _ _ _ ht' | rescan ht' | acked _ ht' | moveCursor _ _ ht' | load _ _ _ ht' | countUp ht' =>
    rcases ht with h | h <;> rw [h] at ht' <;> cases ht'
  | latchTime ht' => rcases ht with h | h <;> simp [h] at ht'
  | xfer kind dev aw off m hidle _ _ _ hwr _ => exact ⟨hwr (ht.resolve_right hidle), by simp⟩
  | raise _ _ ih => exact ih ht hs

theorem EngineStep.within {s u : State} (h : EngineStep s u) {n : Byte} (hs : Within n s) : Within n u :=
  ⟨h.fits hs.fits, by rw [h.xlen]; exact hs.len⟩

/-- A primitive writes no byte of `DBUF` beyond the transaction's. -/
theorem EngineStep.dbufGet {s u : State} (h : EngineStep s u) {n k : Byte} (hs : Within n s) (hk : n ≤ k) :
    u.dbufGet k = s.dbufGet k := by
  have hres : u.env.resets = s.env.resets := (h.op_frame .idle).resets
  unfold State.dbufGet
  rw [hres]
  rcases h.dbuf with he | ⟨hps, _, d, he⟩ <;> rw [he]
  have hlt := hs.fits.data (.inl hps)
  have hlen := hs.len
  have hidx : s.bte.bufIndex.toNat = s.bte.bidx.toNat % 256 := by simp [Bte.bufIndex]
  rw [BitVec.lt_def, BitVec.toNat_setWidth] at hlt
  rw [BitVec.le_def] at hlen hk
  have hxl := s.bte.xlen.isLt
  rw [Memory.read?_write_ne _ (by omega)]

theorem dbufGet_congr {s t : State} (hm : t.dbuf = s.dbuf) (hr : t.env.resets = s.env.resets) (k : Byte) :
    t.dbufGet k = s.dbufGet k := by
  unfold State.dbufGet; rw [hm, hr]

theorem busyInstant_within {n : Byte} (hn : 10 ≤ n) {i : Instant} (hr : i.reset = false) {s : State}
    (ho : s.seq.task.op ≠ .transfer) (hs : Within n s) :
    Within n (busyInstant i s) ∧ ∀ k, n ≤ k → (busyInstant i s).dbufGet k = s.dbufGet k := by
  obtain ⟨hseq, hbte, hdbuf, _, _⟩ := onHost_busyHost_seq i s
  have hh : Within n (i.onHost State.busyHost s) := ⟨by rw [hbte]; exact hs.fits, by rw [hbte]; exact hs.len⟩
  have hget : ∀ k, (i.onHost State.busyHost s).dbufGet k = s.dbufGet k :=
    dbufGet_congr hdbuf (onHost_busyHost_frame .idle i s).resets
  rw [busyInstant_noReset hr]
  obtain ⟨u, he, hu | ha⟩ := seqStep_acts i (i.onHost State.busyHost s)
  · rw [hu]
    exact ⟨⟨(he.within hh).fits, (he.within hh).len⟩, fun k hk => (he.dbufGet hh hk).trans (hget k)⟩
  · have hw := ha.within hn (by rw [he.seq, hseq]; exact ho) (he.within hh)
    refine ⟨⟨hw.fits, hw.len⟩, fun k hk => ?_⟩
    calc (State.latchTick i.tick (seqStep i (i.onHost State.busyHost s))).dbufGet k
        = u.dbufGet k := dbufGet_congr ha.dbuf ha.frame.resets k
      _ = s.dbufGet k := (he.dbufGet hh hk).trans (hget k)

/-- An operation of at most `n` bytes per transaction leaves `DBUF` alone from `n` on. -/
theorem run_dbufGet {o : Task} (ho : o ≠ .transfer) {n : Byte} (hn : 10 ≤ n) {l : List Instant}
    (hl : ∀ i ∈ l, i.reset = false) {s : State} (hs : s.runs o) (hw : Within n s) (k : Byte) (hk : n ≤ k) :
    (run l s).dbufGet k = s.dbufGet k := by
  refine (run_invariant (P := fun t => (t.dbufGet k = s.dbufGet k ∧ t.runs o) ∧ Within n t)
    (Q := fun i => i.reset = false) rfl ?_ ?_ l hl s ⟨⟨rfl, hs⟩, hw⟩).1.1
  · exact fun t ins h => ⟨h.1, h.2.fits, h.2.len⟩
  · intro i t hr _ ⟨⟨hk', hto⟩, hwt⟩
    have hne : t.seq.task.op ≠ .transfer := by
      rcases hto with h | h
      · rw [h]; exact ho
      · rw [h]; decide
    obtain ⟨hwi, hki⟩ := busyInstant_within hn hr hne hwt
    exact ⟨⟨(hki k hk).trans hk', (busyInstant_frame_runs hr hto).runs hto⟩, hwi⟩

theorem busyInstant_writing {i : Instant} (hr : i.reset = false) {s : State} (hs : s.runs .wrRec) (hw : s.bte.Writing) :
    (busyInstant i s).bte.Writing ∧ (busyInstant i s).dbuf = s.dbuf := by
  obtain ⟨hseq, hbte, hdbuf, _, _⟩ := onHost_busyHost_seq i s
  rw [busyInstant_noReset hr]
  obtain ⟨u, he, hu⟩ := seqStep_acts i (i.onHost State.busyHost s)
  have hwu : u.bte.Writing := he.writing (by rw [hbte]; exact hw)
  have hdu : u.dbuf = s.dbuf := by
    rcases he.dbuf with hd | ⟨hps, _⟩
    · exact hd.trans hdbuf
    · rw [hbte] at hps; exact absurd hps hw.noRead.2.2
  rcases hu with hu | ha
  · rw [hu]; exact ⟨hwu, hdu⟩
  · exact ⟨ha.writing (by rw [he.seq, hseq]; exact State.runs_wrRec hs) hwu, ha.dbuf.trans hdu⟩

/-- WRREC leaves `DBUF` alone altogether. -/
theorem run_dbuf_of_wrRec {l : List Instant} (hl : ∀ i ∈ l, i.reset = false) {s : State} (hs : s.runs .wrRec)
    (hw : s.bte.Writing) : (run l s).dbuf = s.dbuf := by
  refine (run_invariant (P := fun t => (t.dbuf = s.dbuf ∧ t.runs .wrRec) ∧ t.bte.Writing)
    (Q := fun i => i.reset = false) rfl ?_ ?_ l hl s ⟨⟨rfl, hs⟩, hw⟩).1.1
  · exact fun t ins h => h
  · intro i t hr _ ⟨⟨hm, hto⟩, hwt⟩
    obtain ⟨hwi, hdi⟩ := busyInstant_writing hr hto hwt
    exact ⟨⟨hdi.trans hm, (busyInstant_frame_runs hr hto).runs hto⟩, hwi⟩

end Sys2Proof.Machine
end

section
/-! The commands and the tick run as operations: how each begins, and its frame over its whole run; then the statements
on frames. -/

namespace Sys2Proof.Machine

/-! ### How an operation begins -/

/-- The state in which a command's operation begins, with nothing done yet. -/
def State.begun (i : Instr) (s : State) : State :=
  match i with
  | .nop => { s with seq := { s.seq with task := .idle } }
  | .bread | .bwrite | .clkread | .clkwrite | .memread | .memwrite => { s with seq := { s.seq with task := .transfer } }
  | .gettime => { s with seq := { s.seq with task := .getTime } }
  | .loadcfg => { s.zeroCursor with seq := { s.seq with task := .loadCfg } }
  | .rdrec => { s with seq := { s.seq with task := .rdRec } }
  | .wrrec => { s with seq := { s.seq with task := .wrRec } }
  | .cntvalid => { s with seq := { s.seq with task := .cntValid, cidx := 0 } }
  | .chkdueN => { s with seq := { s.seq with task := .dueTime, mode := .normal } }
  | .chkdueI => { s with seq := { s.seq with task := .dueTime, mode := .init } }

/-- A pass begins with the time read (R222, R227). -/
theorem acts_checkDue (mode : Mode) (s : State) :
    Acts { s with seq := { s.seq with task := .dueTime, mode := mode } } (s.checkDue mode) :=
  acts_memRead (s := { s with seq := { s.seq with task := .dueTime, mode := mode } }) nofun rfl nofun nofun nofun
    (.inr (by decide))

theorem acts_commandBody (i : Instr) (s : State) : Acts (s.begun i) (commandBody i s) := by
  cases i with
  | nop => exact .complete (s := s.begun .nop) false (by simp [State.begun, Task.op])
  | bread => exact acts_memRead (s := s.begun .bread) nofun rfl nofun nofun nofun (.inl rfl)
  | clkread => exact acts_memRead (s := s.begun .clkread) nofun rfl nofun nofun nofun (.inl rfl)
  | memread => exact acts_memRead (s := s.begun .memread) nofun rfl nofun nofun nofun (.inl rfl)
  | bwrite => exact .xfer (s := s.begun .bwrite) .wr _ _ _ _ nofun rfl nofun nofun nofun (.inl rfl)
  | clkwrite => exact .xfer (s := s.begun .clkwrite) .wr _ _ _ _ nofun rfl nofun nofun nofun (.inl rfl)
  | memwrite => exact .xfer (s := s.begun .memwrite) .wr _ _ _ _ nofun rfl nofun nofun nofun (.inl rfl)
  | gettime => exact acts_memRead (s := s.begun .gettime) nofun rfl nofun nofun nofun (.inr (by decide))
  | loadcfg => exact acts_memRead (s := s.begun .loadcfg) nofun rfl nofun nofun nofun (.inr (by decide))
  | rdrec => exact acts_readRecord (s := s.begun .rdrec) rfl _
  | wrrec => exact acts_writeRecord (s := s.begun .wrrec) rfl _
  | cntvalid => exact acts_countNext (s := s.begun .cntvalid) rfl
  | chkdueN => exact acts_checkDue .normal s
  | chkdueI => exact acts_checkDue .init s

/-- The same of any byte: an undefined one does not begin an operation (R261). -/
def State.begunBy (c : Byte) (s : State) : State :=
  match decodeByte c with
  | .ok i => s.begun i
  | .error _ => s.begun .nop

theorem acts_byteBody (c : Byte) (s : State) : Acts (s.begunBy c) (byteBody c s) := by
  cases hd : decodeByte c with
  | ok i => simpa only [State.begunBy, byteBody, hd] using acts_commandBody i s
  | error e =>
    simp only [State.begunBy, byteBody, hd]
    exact .raise .illCmd (.complete (s := (s.begun .nop).raise .illCmd) true (by simp [State.begun, Task.op]))

/-- The state in which the run of an accepted command begins. -/
abbrev State.accepted (i : Instr) (s : State) : State := commandBody i (s.commandStart (encodeByte i))

/-- A command takes the rest of the trace (R262). -/
theorem exec_ready {i : Instr} {s : State} (h : Ready s) : exec i s = .next (run s.env.inputs (s.accepted i)) := by
  have hin : (s.accepted i).env.inputs = s.env.inputs := by
    rw [(acts_commandBody i _).inputs]
    cases i <;> rfl
  rw [exec_eq_accept, accept_ready h.busy h.halt, State.runSeq, hin]

/-- The operation of a command; NOP is none. -/
def opOf : Instr → Task
  | .nop => .idle
  | .bread | .bwrite | .clkread | .clkwrite | .memread | .memwrite => .transfer
  | .gettime => .getTime
  | .loadcfg => .loadCfg
  | .rdrec => .rdRec
  | .wrrec => .wrRec
  | .cntvalid => .cntValid
  | .chkdueN | .chkdueI => .dueTime

theorem begun_op (i : Instr) (s : State) : (s.begun i).seq.task.op = opOf i := by cases i <;> rfl

theorem accepted_runs (i : Instr) (s : State) : (s.accepted i).runs (opOf i) := by
  have hf := (acts_commandBody i (s.commandStart (encodeByte i))).frame
  rw [begun_op] at hf
  exact hf.runs (.inl (begun_op i _))

/-- The frame of a command from its start to the end of its run. -/
theorem run_accepted_frame (i : Instr) (s : State) {l : List Instant} (hl : ∀ j ∈ l, j.reset = false) :
    Frame (opOf i) ((s.commandStart (encodeByte i)).begun i) (run l (s.accepted i)) := by
  have hf := (acts_commandBody i (s.commandStart (encodeByte i))).frame
  rw [begun_op] at hf
  exact hf.trans (run_frame hl (accepted_runs i s))

/-- Over a command's run from an idle block, the frame of its operation. -/
theorem exec_frame {s t : State} {i : Instr} (h : Ready s) (hn : NoReset s) (he : exec i s = .next t) :
    Frame (opOf i) ((s.commandStart (encodeByte i)).begun i) t := by
  rw [exec_ready h] at he
  rw [← Host.Outcome.next.inj he]
  exact run_accepted_frame i s hn

/-! ### The pass of a CheckDue -/

/-- The state in which the run of a pass begins, whoever starts it. -/
def DueBy.started (d : DueBy) (s : State) : State :=
  match d with
  | .normal => s.accepted .chkdueN
  | .init => s.accepted .chkdueI
  | .tick => s.tickStart.checkDue .normal

theorem tickRun_eq (s : State) : tickRun s = run s.env.inputs (s.tickStart.checkDue .normal) := rfl

/-- A quiet instant starts a tick run where its condition holds (R245). -/
theorem instant_quiet_tick {s : State} (h : Ready s) (hen : s.tickEn = true) (htp : s.tickp = true) :
    instant Instant.quiet s = tickRun s := by
  have hready : s.tickReady = true := by simp [State.tickReady, h.busy, h.halt, hen, htp]
  rw [instant_idle rfl h.busy rfl, idleInstant]
  simp [Instant.onHost, Instant.quiet, hready]

theorem dueBy_run {d : DueBy} {s : State} (h : Ready s) (hm : d.May s) :
    d.run s = .next (run s.env.inputs (d.started s)) := by
  cases d with
  | normal => exact exec_ready (i := .chkdueN) h
  | init => exact exec_ready (i := .chkdueI) h
  | tick =>
    obtain ⟨hen, htp⟩ := hm rfl
    rw [DueBy.run, step_listed (i := Instant.quiet) (rest := s.env.inputs) rfl, withInputs_withInputs, withInputs_self,
      instant_quiet_tick h hen htp, tickRun_eq]
    rfl

/-- What stands in the registers when the run of a pass begins: the command or the tick run has started, and the time read
with it. -/
theorem dueBy_started (d : DueBy) (s : State) :
    d.started s =
      { s with
        cmd := d.cmd s, busy := true, src := d.src, err := 0
        bte := { s.bte with pstate := .start, bidx := 0, owned := false, iter := 0, xkind := .rd,
                            xdev := s.cfg.clockDev, xaw := 1, xoff := 0, xlen := 7 }
        seq := { s.seq with task := .dueTime, mode := d.mode } } := by
  cases d <;> rfl

theorem started_frame (d : DueBy) (s : State) {l : List Instant} (hl : ∀ j ∈ l, j.reset = false) :
    Frame .dueTime (d.started s) (run l (d.started s)) := by
  refine run_frame hl (.inl ?_)
  rw [dueBy_started]
  rfl

/-! ### `DBUF` and the operations -/

theorem within_of_start {n : Byte} {s : State} (hp : s.bte.pstate = .start) (hb : s.bte.bidx = 0)
    (hlen : s.bte.xlen ≤ n) : Within n s :=
  ⟨⟨by rw [hb]; exact BitVec.le_def.2 (Nat.zero_le _), by simp [hp], by simp [hp]⟩, hlen⟩

/-- An operation that is neither a transfer nor a pass is over at once, or begins a transaction of at most ten bytes. -/
theorem Acts.fresh {s t : State} (h : Acts s t) (ht : s.seq.task.op ≠ .transfer) (hd : s.seq.task.op ≠ .dueTime) :
    t.busy = false ∨ (Within 10 t ∧ (s.seq.task = .wrRec → t.bte.Writing)) := by
  induction h with
  | complete | endCount | failPass | noScan | endPass => exact .inl rfl
  | transmit _ ht' | window _ _ _ ht' | rescan ht' | acked _ ht' | moveCursor _ _ ht' => exact absurd (by rw [ht']; rfl) hd
  | xfer kind dev aw off m _ _ _ _ hwr hlen =>
    exact .inr ⟨within_of_start rfl rfl (hlen.resolve_left fun he => ht (by rw [he]; rfl)),
      fun he => ⟨hwr he, by simp⟩⟩
  | raise _ _ ih | latchTime _ _ ih | load _ _ _ _ _ _ ih | countUp _ _ ih => exact ih ht hd

/-- The run of a record command leaves `DBUF` alone from `DBUF[10]` on, and altogether for WRREC. -/
theorem run_accepted_dbuf (s : State) {i : Instr} (hi : i = .rdrec ∨ i = .wrrec ∨ i = .cntvalid) {l : List Instant}
    (hl : ∀ j ∈ l, j.reset = false) :
    (i = .wrrec → (run l (s.accepted i)).dbuf = s.dbuf) ∧
      ∀ k : Byte, 10 ≤ k → (run l (s.accepted i)).dbufGet k = s.dbufGet k := by
  have ha := acts_commandBody i (s.commandStart (encodeByte i))
  have hop : opOf i ≠ .transfer ∧ opOf i ≠ .dueTime := by rcases hi with rfl | rfl | rfl <;> decide
  have hdbuf : (s.accepted i).dbuf = s.dbuf := ha.dbuf.trans (by cases i <;> rfl)
  have hget : ∀ k, (s.accepted i).dbufGet k = s.dbufGet k :=
    dbufGet_congr hdbuf (ha.frame.resets.trans (by cases i <;> rfl))
  have hop' : ((s.commandStart (encodeByte i)).begun i).seq.task.op ≠ .transfer ∧
      ((s.commandStart (encodeByte i)).begun i).seq.task.op ≠ .dueTime := by rw [begun_op]; exact hop
  rcases ha.fresh hop'.1 hop'.2 with hb | ⟨hw, hwr⟩
  · rw [run_idle hb]; exact ⟨fun _ => hdbuf, fun k _ => hget k⟩
  · refine ⟨fun he => ?_, fun k hk => ?_⟩
    · subst he
      rw [run_dbuf_of_wrRec hl (accepted_runs .wrrec s) (hwr rfl), hdbuf]
    · rw [run_dbufGet hop.1 (by decide) hl (accepted_runs i s) hw k hk, hget]

theorem begun_record (s : State) {i : Instr} (hi : i = .rdrec ∨ i = .wrrec ∨ i = .cntvalid) :
    ∃ n, s.begun i = { s with seq := { s.seq with task := opOf i, cidx := n } } ∧ (i ≠ .cntvalid → n = s.seq.cidx) := by
  rcases hi with rfl | rfl | rfl
  · exact ⟨_, rfl, fun _ => rfl⟩
  · exact ⟨_, rfl, fun _ => rfl⟩
  · exact ⟨_, rfl, fun hne => absurd rfl hne⟩

/-- Settles O45: the frame of each command's operation, and the bound on the bytes it moves. -/
theorem recordFrame : Obligations.RecordFrame := by
  intro s t i hready hn hi he
  have hf := exec_frame hready hn he
  obtain ⟨n, hbegun, hcidx⟩ := begun_record (s.commandStart (encodeByte i)) hi
  rw [hbegun] at hf
  rw [exec_ready hready] at he
  obtain ⟨hdbuf, hget⟩ := run_accepted_dbuf s hi hn
  rw [Host.Outcome.next.inj he] at hdbuf hget
  have hop : opOf i ≠ .loadCfg ∧ opOf i ≠ .getTime ∧ opOf i ≠ .dueTime := by rcases hi with rfl | rfl | rfl <;> decide
  have hcount : i ≠ .cntvalid → opOf i ≠ .cntValid := by rcases hi with rfl | rfl | rfl <;> decide
  obtain ⟨hcap, hcfgok, hhw⟩ := hf.config hop.1
  obtain ⟨hcursor, htx, htxs, hseq⟩ := hf.scan hop.2.2
  exact ⟨hf.cfg, hf.cmd, hf.src, hf.ops, hcap, hcursor, hf.time hop.2.1 hop.2.2, hhw, hcfgok, htx, hseq, htxs, hf.resets,
    fun hne => ⟨(hf.count (hcount hne)).1, (hf.count (hcount hne)).2.trans (hcidx hne)⟩, hdbuf, hget⟩

/-- Settles O46: the frame of the pass's operation, and its transactions of seven and ten bytes. -/
theorem checkDueFrame : Obligations.CheckDueFrame := by
  intro s t d hready hn hm he
  rw [dueBy_run hready hm] at he
  have he := Host.Outcome.next.inj he
  have hf := started_frame d s hn
  have hget : ∀ k : Byte, 10 ≤ k → (run s.env.inputs (d.started s)).dbufGet k = (d.started s).dbufGet k :=
    run_dbufGet (o := .dueTime) nofun (by decide) hn (.inl (by rw [dueBy_started]; rfl))
      (by rw [dueBy_started]; exact within_of_start rfl rfl (show (7 : Byte) ≤ 10 by decide))
  rw [dueBy_started] at hf hget he
  rw [he] at hf hget
  obtain ⟨hcap, hcfgok, hhw⟩ := hf.config nofun
  exact ⟨hf.cfg, hf.cmd, hf.src, hf.ops, (hf.count nofun).1, hcap, hhw, hcfgok, (hf.count nofun).2, hf.mode, hf.resets,
    hf.txs, fun hd => (hf.silent (by rw [hd]; rfl) rfl).2, hget⟩

end Sys2Proof.Machine
end

section
/-! Instants of an idle block, and what the flags and the configuration do over a step. -/

namespace Sys2Proof.Machine

/-! ### The host's access to an idle block -/

/-- A host write to an idle block touches the operands, `DBUF`, `TICK_EN`, `HALT` and `OVR` only (R23, R34). -/
theorem writeReg_frame (a : HostAddr) (v : Byte) (s : State) :
    s.writeReg a v =
      { s with ops := (s.writeReg a v).ops, dbuf := (s.writeReg a v).dbuf, tickEn := (s.writeReg a v).tickEn,
               halt := (s.writeReg a v).halt, ovr := (s.writeReg a v).ovr } := by
  unfold State.writeReg
  split
  · rfl
  · split <;> rfl

/-- ... and `HALT` is never cleared by it (R265). -/
theorem writeReg_halt (a : HostAddr) (v : Byte) {s : State} (h : s.halt = true) : (s.writeReg a v).halt = true := by
  unfold State.writeReg
  split
  · exact h
  · split <;> simp [h]

/-- The host's access in an instant of an idle block. -/
theorem onHost_idleHost_frame (i : Instant) (s : State) :
    i.onHost State.idleHost s =
      { s with ops := (i.onHost State.idleHost s).ops, dbuf := (i.onHost State.idleHost s).dbuf,
               tickEn := (i.onHost State.idleHost s).tickEn, halt := (i.onHost State.idleHost s).halt,
               ovr := (i.onHost State.idleHost s).ovr,
               env := { s.env with reads := (i.onHost State.idleHost s).env.reads } } := by
  unfold Instant.onHost
  split
  · next h _ =>
    cases h with
    | read a => rfl
    | write a v =>
      have hw := writeReg_frame a v s
      have henv : (s.writeReg a v).env = s.env := by rw [hw]
      simp only [State.idleHost]
      rw [henv]
      exact hw
  · rfl

theorem onHost_idleHost_halt (i : Instant) {s : State} (h : s.halt = true) :
    (i.onHost State.idleHost s).halt = true := by
  unfold Instant.onHost
  split
  · next h' _ =>
    cases h' with
    | read a => exact h
    | write a v => exact writeReg_halt a v h
  · exact h

/-- The state of an idle block after the TICK edge and the host's access of an instant, before a tick run may start. -/
def State.heard (i : Instant) (s : State) : State := i.onHost State.idleHost (s.latchTick i.tick)

theorem heard_frame (i : Instant) (s : State) :
    s.heard i =
      { s with ops := (s.heard i).ops, dbuf := (s.heard i).dbuf, tickEn := (s.heard i).tickEn,
               halt := (s.heard i).halt, ovr := (s.heard i).ovr, tickp := s.tickp || i.tick,
               env := { s.env with reads := (s.heard i).env.reads } } :=
  onHost_idleHost_frame i (s.latchTick i.tick)

theorem heard_tickp (i : Instant) (s : State) : (s.heard i).tickp = (s.tickp || i.tick) := by rw [heard_frame]

theorem heard_busy (i : Instant) (s : State) : (s.heard i).busy = s.busy := by rw [heard_frame]

theorem heard_inputs (i : Instant) (s : State) : (s.heard i).env.inputs = s.env.inputs := by rw [heard_frame]

theorem heard_of_noHost {i : Instant} (h : i.host = none) (s : State) : s.heard i = s.latchTick i.tick := by
  simp [State.heard, Instant.onHost, h]

theorem idleInstant_eq (i : Instant) (s : State) :
    idleInstant i s = if (s.heard i).tickReady then tickRun (s.heard i) else s.heard i := rfl

/-- An instant without a `CMD` write, of an idle block: a tick run starts, or nothing more happens (R245). -/
theorem idleInstant_cases (i : Instant) (s : State) :
    ((s.heard i).tickReady = true ∧
      idleInstant i s = run (s.heard i).env.inputs ((s.heard i).tickStart.checkDue .normal)) ∨
    ((s.heard i).tickReady = false ∧ idleInstant i s = s.heard i) := by
  rw [idleInstant_eq]
  cases h : (s.heard i).tickReady
  · exact .inr ⟨rfl, by simp⟩
  · exact .inl ⟨rfl, by simp [tickRun_eq]⟩

/-- What an instant without RESET comes to. -/
theorem instant_cases {i : Instant} (hr : i.reset = false) (s : State) :
    (s.busy = true ∧ instant i s = busyInstant i s) ∨
    (s.busy = false ∧ ∃ c, i.cmdWrite? = some c ∧ instant i s = accept c (byteBody c) (s.latchTick i.tick)) ∨
    (s.busy = false ∧ i.cmdWrite? = none ∧ instant i s = idleInstant i s) := by
  cases hb : s.busy with
  | true => exact .inl ⟨rfl, instant_busy hr hb⟩
  | false =>
    cases hc : i.cmdWrite? with
    | some c => exact .inr (.inl ⟨rfl, c, rfl, instant_command hr hb hc⟩)
    | none => exact .inr (.inr ⟨rfl, rfl, instant_idle hr hb hc⟩)

/-- A byte written to an idle block: discarded, or run over the rest of the trace. -/
theorem accept_cases {s : State} (hb : s.busy = false) (c : Byte) :
    (s.halt = true ∧ accept c (byteBody c) s = s.discard) ∨
    (s.halt = false ∧ accept c (byteBody c) s = run s.env.inputs (byteBody c (s.commandStart c))) := by
  cases hh : s.halt with
  | true => exact .inl ⟨rfl, accept_discard (.inr hh) c _⟩
  | false =>
    refine .inr ⟨rfl, ?_⟩
    have hin : (byteBody c (s.commandStart c)).env.inputs = s.env.inputs := by
      rw [(acts_byteBody c _).inputs]
      unfold State.begunBy
      split
      · next i _ => cases i <;> rfl
      · rfl
    rw [accept_ready hb hh, State.runSeq, hin]

/-! ### The flags -/

theorem begunBy_eq (c : Byte) (s : State) : ∃ i, s.begunBy c = s.begun i ∧ (decodeByte c = .ok i ∨ i = .nop) := by
  unfold State.begunBy
  split
  · next i hd => exact ⟨i, rfl, .inl hd⟩
  · exact ⟨.nop, rfl, .inr rfl⟩

/-- What a begun operation has not touched yet. -/
theorem begunBy_flags (c : Byte) (s : State) :
    (s.begunBy c).busy = s.busy ∧ (s.begunBy c).tickp = s.tickp ∧ HostFrame s (s.begunBy c) := by
  obtain ⟨i, he, _⟩ := begunBy_eq c s
  rw [he]
  cases i <;> exact ⟨rfl, rfl, rfl, rfl, rfl, rfl, rfl⟩

/-- Where no tick is pending and none comes, none is pending afterwards. -/
theorem busyInstant_tickp_false {i : Instant} (hr : i.reset = false) (ht : i.tick = false) {s : State}
    (hb : s.busy = true) (htp : s.tickp = false) : (busyInstant i s).tickp = false := by
  have h := busyInstant_tickFrame hr ht s
  by_cases ho : s.seq.task.op = .dueTime
  · rw [h.due ho hb, htp, ite_self]
  · rw [h.other ho, htp]

theorem run_tickp_false {l : List Instant} (hl : ∀ i ∈ l, i.reset = false ∧ i.tick = false) {s : State}
    (htp : s.tickp = false) : (run l s).tickp = false :=
  run_invariant (P := fun t => t.tickp = false) (Q := fun i => i.reset = false ∧ i.tick = false) ⟨rfl, rfl⟩
    (fun _ _ h => h) (fun _ _ hi hb h => busyInstant_tickp_false hi.1 hi.2 hb h) l hl s htp

/-- An instant without host access leaves the host's fields alone. -/
theorem instant_hostFrame {i : Instant} {s : State} (hr : i.reset = false) (hh : i.host = none)
    (hn : ∀ j ∈ s.env.inputs, j.reset = false ∧ j.host = none) : HostFrame s (instant i s) := by
  rcases instant_cases hr s with ⟨_, he⟩ | ⟨_, c, hc, _⟩ | ⟨_, _, he⟩
  · rw [he]; exact busyInstant_hostFrame hr hh s
  · rw [Instant.cmdWrite?, hh] at hc; cases hc
  · rw [he]
    rcases idleInstant_cases i s with ⟨_, hi⟩ | ⟨_, hi⟩ <;> rw [hi, heard_of_noHost hh]
    · exact .trans (t := (s.latchTick i.tick).tickStart.checkDue .normal) ⟨rfl, rfl, rfl, rfl, rfl⟩
        (run_hostFrame hn _)
    · exact ⟨rfl, rfl, rfl, rfl, rfl⟩

/-- An instant without a TICK edge sets no `TICKP`. -/
theorem instant_tickp_false {i : Instant} {s : State} (hr : i.reset = false) (ht : i.tick = false)
    (hn : ∀ j ∈ s.env.inputs, j.reset = false ∧ j.tick = false) (htp : s.tickp = false) :
    (instant i s).tickp = false := by
  rcases instant_cases hr s with ⟨hb, he⟩ | ⟨hb, c, _, he⟩ | ⟨_, _, he⟩ <;> rw [he]
  · exact busyInstant_tickp_false hr ht hb htp
  · rw [ht, latchTick_false]
    rcases accept_cases hb c with ⟨_, ha⟩ | ⟨_, ha⟩ <;> rw [ha]
    · exact htp
    · obtain ⟨hbb, hbt, _⟩ := begunBy_flags c (s.commandStart c)
      have hf := (acts_byteBody c (s.commandStart c)).tickFrame
      refine run_tickp_false hn ?_
      by_cases ho : ((s.commandStart c).begunBy c).seq.task.op = .dueTime
      · rw [hf.due ho hbb, hbt, commandStart_tickp, htp, ite_self]
      · rw [hf.other ho, hbt, commandStart_tickp, htp]
  · have hht : (s.heard i).tickp = false := by rw [heard_tickp, htp, ht]; rfl
    rcases idleInstant_cases i s with ⟨hready, _⟩ | ⟨_, hi⟩
    · simp [State.tickReady, hht] at hready
    · rw [hi, hht]

/-- Only the tasks of a CheckDue pass belong to it. -/
theorem op_eq_due {k : Task} (h : k.op = .dueTime) : k = .dueTime ∨ k.scanning = true := by
  cases k <;> simp [Task.op, Task.scanning] at h ⊢

/-! ### Waiting -/

theorem seqStep_noAck {i : Instant} {s : State} (ht : s.seq.task.transmitting = true) (hack : i.txAck = false) :
    seqStep i s = s := by
  cases hk : s.seq.task <;> simp [hk, Task.transmitting] at ht
  simp [seqStep, hk, hack]

/-- A waiting block that gets no answer stays as it is (R73, R47, R312). -/
theorem seqStep_waiting {i : Instant} {s : State} (h : Waiting s) (hbus : i.bus = none) (hack : i.txAck = false) :
    seqStep i s = s := by
  by_cases ht : s.seq.task.transmitting = true
  · exact seqStep_noAck ht hack
  · obtain ⟨p, hr, hp⟩ := h.wait.resolve_left ht
    rw [seqStep_request (by simpa using ht), hr, hbus]
    cases p <;> simp at hp ⊢

theorem waiting_onHost {s : State} (h : Waiting s) (i : Instant) : Waiting (i.onHost State.busyHost s) := by
  obtain ⟨hseq, hbte, hdbuf, hb, _⟩ := onHost_busyHost_seq i s
  have hreq : (i.onHost State.busyHost s).request = s.request := by
    have hget := dbufGet_congr hdbuf (onHost_busyHost_frame .idle i s).resets
    simp only [State.request, hbte, hget]
  exact ⟨hb.trans h.busy, by rw [hseq, hreq]; exact h.wait⟩

/-- An instant of a waiting block in which nothing answers: the host's access, and the TICK edge. -/
theorem busyInstant_waiting {i : Instant} {s : State} (h : Waiting s) (hr : i.reset = false) (hbus : i.bus = none)
    (hack : i.txAck = false) : busyInstant i s = State.latchTick i.tick (i.onHost State.busyHost s) := by
  rw [busyInstant_noReset hr, seqStep_waiting (waiting_onHost h i) hbus hack]

theorem busyInstant_quiet {s : State} (h : Waiting s) : busyInstant Instant.quiet s = s := by
  rw [busyInstant_waiting h rfl rfl rfl]
  exact latchTick_false s

/-- A run of a waiting block without listed instants waits. -/
theorem run_nil_waiting {s : State} (h : Waiting s) : run [] s = s.withInputs [] := by
  rw [run, if_pos h.busy]
  exact busyInstant_quiet (s := s.withInputs []) ⟨h.busy, h.wait⟩

/-- A pass that has begun waits for its first START. -/
theorem waiting_checkDue (mode : Mode) {s : State} (h : s.busy = true) : Waiting (s.checkDue mode) :=
  ⟨h, .inr ⟨.start, rfl, nofun⟩⟩

end Sys2Proof.Machine
end

section
/-! The statements on the flags and on the configuration. -/

namespace Sys2Proof.Machine

/-! ### `FlagFrame`: commands -/

theorem run_accepted_hostFrame (i : Instr) (s : State) {l : List Instant}
    (hl : ∀ j ∈ l, j.reset = false ∧ j.host = none) : HostFrame s (run l (s.accepted i)) := by
  have hbegun : HostFrame s ((s.commandStart (encodeByte i)).begun i) := by cases i <;> exact ⟨rfl, rfl, rfl, rfl, rfl⟩
  exact (hbegun.trans (acts_commandBody i _).hostFrame).trans (run_hostFrame hl _)

theorem accepted_tickp {i : Instr} (hi : opOf i ≠ .dueTime) (s : State) : (s.accepted i).tickp = s.tickp := by
  have hf := (acts_commandBody i (s.commandStart (encodeByte i))).tickFrame
  rw [hf.other (by rw [begun_op]; exact hi)]
  cases i <;> rfl

theorem opOf_eq_due {i : Instr} (h : opOf i = .dueTime) : i = .chkdueN ∨ i = .chkdueI := by
  cases i <;> simp [opOf] at h ⊢

/-- A command's pass: `TICKP` is cleared when it is over, and not before. -/
theorem run_accepted_due_tickp {i : Instr} (hi : i = .chkdueN ∨ i = .chkdueI) (s : State) {l : List Instant}
    (hl : ∀ j ∈ l, j.reset = false ∧ j.tick = false) :
    (run l (s.accepted i)).tickp = if (run l (s.accepted i)).busy then s.tickp else false := by
  rcases hi with rfl | rfl
  · exact run_tickp_due (s := s.accepted .chkdueN) hl rfl rfl
  · exact run_tickp_due (s := s.accepted .chkdueI) hl rfl rfl

/-- `FlagFrame` for a command. -/
theorem exec_flags {s t : State} {i : Instr} (h : Ready s) (hn : NoReset s) (he : exec i s = .next t) :
    (NoHost s → t.tickEn = s.tickEn ∧ t.halt = s.halt ∧ t.ovr = s.ovr ∧ t.env.reads = s.env.reads ∧
      t.env.draws = s.env.draws) ∧
    (i ≠ .chkdueN → i ≠ .chkdueI → (s.tickp = true → t.tickp = true) ∧ (NoTick s → t.tickp = s.tickp)) ∧
    (i = .chkdueN ∨ i = .chkdueI → NoTick s → t.tickp = if t.busy then s.tickp else false) := by
  rw [exec_ready h] at he
  rw [← Host.Outcome.next.inj he]
  refine ⟨fun hh => ?_, fun hN hI => ?_, fun hi ht => ?_⟩
  · obtain ⟨hen, hha, hov, hrd, hdr⟩ := run_accepted_hostFrame i s (fun j hj => ⟨hn j hj, hh j hj⟩)
    exact ⟨hen, hha, hov, hrd, hdr⟩
  · have hop : opOf i ≠ .dueTime := fun ho => (opOf_eq_due ho).elim hN hI
    have htp := accepted_tickp hop s
    refine ⟨fun hp => run_tickp_kept hop hn (accepted_runs i s) (htp.trans hp), fun ht => ?_⟩
    rw [run_tickp_of_ne_due hop (fun j hj => ⟨hn j hj, ht j hj⟩) (accepted_runs i s), htp]
  · exact run_accepted_due_tickp hi s fun j hj => ⟨hn j hj, ht j hj⟩

/-! ### `FlagFrame`: steps -/

/-- `FlagFrame` for a step. -/
theorem step_flags {s t : State} (hn : NoReset s.ahead) (he : step s = .next t) :
    (NoHost s.ahead → t.tickEn = s.tickEn ∧ t.halt = s.halt ∧ t.ovr = s.ovr ∧ t.env.reads = s.env.reads ∧
      t.env.draws = s.env.draws) ∧
    (NoTick s.ahead → s.tickp = false → t.tickp = false) ∧
    (s.busy = true → s.tickp = true → t.busy = true ∨ (s.seq.task ≠ .dueTime ∧ s.seq.task.scanning = false) →
      t.tickp = true) := by
  refine ⟨fun hh => ?_, fun ht hp => ?_, fun hb hp hd => ?_⟩
  · obtain ⟨i, rest, ⟨hr, hi⟩, hrest, hs⟩ :=
      step_eq_instant_of_forall (Q := fun j => j.reset = false ∧ j.host = none) ⟨rfl, rfl⟩
        (fun j hj => ⟨hn j hj, hh j hj⟩)
    rw [← Host.Outcome.next.inj (hs.symm.trans he)]
    obtain ⟨hen, hha, hov, hrd, hdr⟩ := instant_hostFrame (s := s.withInputs rest) hr hi hrest
    exact ⟨hen, hha, hov, hrd, hdr⟩
  · obtain ⟨i, rest, ⟨hr, hi⟩, hrest, hs⟩ :=
      step_eq_instant_of_forall (Q := fun j => j.reset = false ∧ j.tick = false) ⟨rfl, rfl⟩
        (fun j hj => ⟨hn j hj, ht j hj⟩)
    rw [← Host.Outcome.next.inj (hs.symm.trans he)]
    exact instant_tickp_false hr hi hrest hp
  · obtain ⟨i, rest, hr, _, hs⟩ := step_eq_instant_of_forall (Q := fun j => j.reset = false) rfl hn
    have he' := Host.Outcome.next.inj (hs.symm.trans he)
    rw [instant_busy (s := s.withInputs rest) hr hb] at he'
    rw [← he'] at hd ⊢
    refine busyInstant_tickp_kept (s := s.withInputs rest) hr hp hb (hd.symm.imp_left fun hno ho => ?_)
    rcases op_eq_due ho with hk | hk
    · exact hno.1 hk
    · rw [withInputs_seq, hno.2] at hk; cases hk

/-- A pending tick stays pending where an accepted byte runs without listed instants. -/
theorem run_nil_byteBody_tickp (c : Byte) {s : State} (ht : s.tickp = true) :
    (run [] (byteBody c (s.commandStart c))).tickp = true := by
  have hkeep : ∀ i : Instr, (run [] (commandBody i (s.commandStart c))).tickp = true := fun i => by
    have ha := acts_commandBody i (s.commandStart c)
    have hf := ha.frame
    rw [begun_op] at hf
    by_cases ho : opOf i = .dueTime
    · rcases opOf_eq_due ho with rfl | rfl
      · exact (congrArg State.tickp (run_nil_waiting (waiting_checkDue .normal (s := s.commandStart c) rfl))).trans ht
      · exact (congrArg State.tickp (run_nil_waiting (waiting_checkDue .init (s := s.commandStart c) rfl))).trans ht
    · refine run_tickp_kept ho (by simp) (hf.runs (.inl (begun_op i _))) ?_
      rw [ha.tickFrame.other (by rw [begun_op]; exact ho)]
      cases i <;> exact ht
  unfold byteBody
  split
  · exact hkeep _
  · exact ht

/-- A TICK edge is latched by an instant after which no pass can have completed (R48, R246). -/
theorem instant_latches {i : Instant} {s : State} (hr : i.reset = false) (ht : i.tick = true)
    (h : s.busy = true ∨ s.halt = true ∨ s.env.inputs = []) : (instant i s).tickp = true := by
  rcases instant_cases hr s with ⟨_, he⟩ | ⟨hb, c, _, he⟩ | ⟨hb, _, he⟩ <;> rw [he]
  · rw [busyInstant_noReset hr, ht]
    simp [State.latchTick]
  · have hlt : (s.latchTick i.tick).tickp = true := by simp [ht]
    rcases accept_cases (s := s.latchTick i.tick) hb c with ⟨_, ha⟩ | ⟨hh, ha⟩ <;> rw [ha]
    · exact hlt
    · have hin : s.env.inputs = [] := by simpa [hb, show s.halt = false from hh] using h
      rw [latchTick_env, hin]
      exact run_nil_byteBody_tickp c hlt
  · have hht : (s.heard i).tickp = true := by rw [heard_tickp, ht, Bool.or_true]
    rcases idleInstant_cases i s with ⟨hready, hi⟩ | ⟨_, hi⟩ <;> rw [hi]
    · have hh : s.halt = false := by
        by_contra hh
        have := onHost_idleHost_halt i (s := s.latchTick i.tick) (by simpa using hh)
        simp [State.tickReady, State.heard, this] at hready
      have hin : s.env.inputs = [] := by simpa [hb, hh] using h
      rw [heard_inputs, hin, run_nil_waiting (waiting_checkDue .normal rfl)]
      exact hht
    · exact hht

/-- Settles O47: the fields of the host port, and `TICKP`, over every command, every step, and an instant with an edge. -/
theorem flagFrame : Obligations.FlagFrame := by
  refine ⟨fun s t i h hn he => exec_flags h hn he, fun s t hn he => step_flags hn he, ?_⟩
  intro s t i rest hin hr ht h he
  rw [step_listed hin] at he
  rw [← Host.Outcome.next.inj he]
  exact instant_latches (s := s.withInputs rest) hr ht h

/-! ### `CapacityOnlyByLoadCfg` -/

/-- What LOADCFG alone sets. -/
def State.config (s : State) : Half × Bool × HwInfo := (s.capacity, s.cfgok, s.hw)

theorem Frame.config_eq {o : Task} {s t : State} (h : Frame o s t) (ho : o ≠ .loadCfg) : t.config = s.config := by
  obtain ⟨hc, hk, hw⟩ := h.config ho
  simp [State.config, hc, hk, hw]

/-- Every byte but LOADCFG's runs an operation that is not LOADCFG. -/
theorem run_byteBody_config {c : Byte} (hc : c ≠ 0x25) (s : State) {l : List Instant} (hl : ∀ j ∈ l, j.reset = false) :
    (run l (byteBody c (s.commandStart c))).config = s.config := by
  obtain ⟨i, hbegun, hi⟩ := begunBy_eq c (s.commandStart c)
  have ha := acts_byteBody c (s.commandStart c)
  have hne : i ≠ .loadcfg := by
    rintro rfl
    exact hc (encodeByte_of_decodeByte (hi.resolve_right nofun)).symm
  have hop : opOf i ≠ .loadCfg := by cases i <;> simp [opOf] at hne ⊢
  have hconf : ((s.commandStart c).begun i).config = s.config := by cases i <;> rfl
  rw [hbegun] at ha
  have hf := ha.frame
  rw [begun_op] at hf
  rw [(run_frame hl (hf.runs (.inl (begun_op i _)))).config_eq hop, hf.config_eq hop, hconf]

theorem instant_config {i : Instant} {s : State} (hr : i.reset = false) (hn : ∀ j ∈ s.env.inputs, j.reset = false)
    (hbusy : s.busy = true → s.seq.task ≠ .loadCfg) (hcmd : ∀ c, s.busy = false → i.cmdWrite? = some c → c ≠ 0x25) :
    (instant i s).config = s.config := by
  rcases instant_cases hr s with ⟨hb, he⟩ | ⟨hb, c, hc, he⟩ | ⟨hb, _, he⟩ <;> rw [he]
  · have hop : s.seq.task.op ≠ .loadCfg := by
      have := hbusy hb
      cases hk : s.seq.task <;> simp [hk, Task.op] at this ⊢
    exact (busyInstant_frame hr s).config_eq hop
  · rcases accept_cases (s := s.latchTick i.tick) hb c with ⟨_, ha⟩ | ⟨_, ha⟩ <;> rw [ha]
    · rfl
    · exact run_byteBody_config (hcmd c hb hc) (s.latchTick i.tick) hn
  · have hconf : (s.heard i).config = s.config := by rw [heard_frame]; rfl
    rcases idleInstant_cases i s with ⟨_, hi⟩ | ⟨_, hi⟩ <;> rw [hi]
    · rw [heard_inputs, ← hconf]
      exact (run_frame (o := .dueTime) hn (.inl rfl)).config_eq nofun
    · exact hconf

/-- Settles O48: the frame of every operation but LOADCFG's. -/
theorem capacityOnlyByLoadCfg : Obligations.CapacityOnlyByLoadCfg := by
  intro s t hn htask hfetch he
  obtain ⟨i, rest, hu, hs⟩ := step_eq_instant s
  have hreset : i.reset = false ∧ ∀ j ∈ rest, j.reset = false := by
    rcases hu with hu | ⟨_, rfl, rfl⟩
    · have hn' : ∀ j ∈ i :: rest, j.reset = false := by rw [← hu]; exact hn
      exact List.forall_mem_cons.1 hn'
    · exact ⟨rfl, by simp⟩
  have hcmd : ∀ c, s.busy = false → i.cmdWrite? = some c → c ≠ 0x25 := fun c hb hc => by
    rcases hu with hu | ⟨_, rfl, _⟩
    · exact hfetch c _ (by simp only [fetchCommand, hu, hreset.1, hb, hc]; rfl)
    · cases hc
  have hconf := instant_config (s := s.withInputs rest) hreset.1 hreset.2 (fun _ => htask) hcmd
  rw [Host.Outcome.next.inj (hs.symm.trans he)] at hconf
  simpa [State.config] using hconf

end Sys2Proof.Machine
end

section
/-! The invariant of spec/10_state.md R55. Between two waits an operation has control of a state that meets a weaker
predicate, `Control`; every action keeps it, and every wait and every completion gives `Inv` back (`Acts.inv`). -/

namespace Sys2Proof.Machine

/-! ### The parts of the invariant that no phase of an operation breaks -/

structure Settled (s : State) : Prop where
  cfg : s.cfg.wf = true
  lastMin : s.cursor.lastMin ≤ 1439
  capacity : s.capacity ≤ maxCapacity s.cfg.memAw2
  nextIdx : s.cursor.nextIdx < s.capacity ∨ (s.capacity = 0 ∧ s.cursor.nextIdx = 0)
  iter : s.bte.iter ≤ s.cfg.maxIter
  bidx : s.bte.bidx ≤ s.bte.xlen.setWidth 9
  err : s.err ≤ 8
  dbuf : Memory.wf s.dbuf = true ∧ Memory.below Config.dbufSize s.dbuf = true

theorem Inv.settled {s : State} (h : Inv s) : Settled s :=
  ⟨h.cfg, h.lastMin, h.capacity, h.nextIdx, h.iter, h.bidx, h.err, h.dbuf⟩

theorem Inv.fits {s : State} (h : Inv s) : s.bte.Fits := ⟨h.bidx, h.bidxData, h.bidxDone⟩

/-- The registers that `Inv` does not speak of. -/
theorem Inv.congr {s t : State} (h : Inv s)
    (he : t = { s with cmd := t.cmd, fail := t.fail, tickp := t.tickp, ovr := t.ovr, cfgok := t.cfgok, src := t.src,
                       tickEn := t.tickEn, halt := t.halt, ops := t.ops, res := t.res, dt := t.dt, hw := t.hw,
                       env := t.env }) : Inv t := by
  rw [he]
  exact ⟨h.cfg, h.lastMin, h.capacity, h.nextIdx, h.iter, h.iterLive, h.bidx, h.bidxData, h.bidxDone, h.code, h.idle,
    h.running, h.txReq, h.scan, h.count, h.loadCfg, h.err, h.dbuf⟩

/-- An idle block. -/
theorem Settled.inv_of_idle {s : State} (h : Settled s) (hb : s.busy = false) (hp : s.bte.pstate = .idle)
    (ht : s.seq.task = .idle) (hx : s.tx.req = false) : Inv s where
  cfg := h.cfg
  lastMin := h.lastMin
  capacity := h.capacity
  nextIdx := h.nextIdx
  iter := h.iter
  iterLive := by simp [hp, PState.live]
  bidx := h.bidx
  bidxData := by simp [hp]
  bidxDone := by simp [hp]
  code := by simp [hp]
  idle := fun _ => ⟨hp, ht⟩
  running := by simp [hb]
  txReq := by simp [hx, ht, Task.transmitting]
  scan := by simp [ht, Task.scanning]
  count := by simp [ht]
  loadCfg := by simp [ht]
  err := h.err
  dbuf := h.dbuf

/-! ### An operation that has control -/

/-- The state while an operation acts, no transaction under way. -/
structure Control (s : State) : Prop extends Settled s where
  busy : s.busy = true
  pstate : s.bte.pstate = .idle
  txReq : s.tx.req = s.seq.task.transmitting
  scan : s.seq.task.scanning = true → s.seq.cur ≤ 1439 ∧ s.seq.wto ≤ 1440 ∧ s.cursor.nextIdx < s.capacity
  loadCfg : s.seq.task = .loadCfg → s.cursor.lastMin = 0 ∧ s.cursor.nextIdx = 0

theorem FailCode.code_le (c : FailCode) : c.code ≤ 8 := by cases c <;> decide

/-- A decoded time that passes the test of R223 is a minute of the day (R224). -/
theorem minuteOfDay_le {d : DateTime} (h : d.bad = false) : d.minuteOfDay ≤ 1439 := by
  have hbad : ¬ 23 < d.hour ∧ ¬ 59 < d.min := by simpa [DateTime.bad] using h
  have hh : d.hour.toNat ≤ 23 := by have := BitVec.not_lt.1 hbad.1; rwa [BitVec.le_def] at this
  have hm : d.min.toNat ≤ 59 := by have := BitVec.not_lt.1 hbad.2; rwa [BitVec.le_def] at this
  rw [BitVec.le_def, DateTime.minuteOfDay, BitVec.toNat_add, BitVec.toNat_mul, BitVec.toNat_setWidth,
    BitVec.toNat_setWidth]
  change (d.hour.toNat % 2048 * 60 % 2048 + d.min.toNat % 2048) % 2048 ≤ 1439
  have hmod := Nat.mod_le (d.hour.toNat % 2048 * 60) 2048
  have hmodh := Nat.mod_le d.hour.toNat 2048
  have hmodm := Nat.mod_le d.min.toNat 2048
  exact Nat.le_trans (Nat.mod_le _ _) (by omega)

theorem maxIter_pos {p : Params} (h : p.wf = true) : 0 < p.maxIter := by
  have h1 : 1 ≤ p.maxIter := by
    simp only [Params.wf, Bool.and_eq_true, decide_eq_true_eq] at h
    exact h.1.1
  bv_omega

theorem Control.inv_complete {s : State} (h : Control s) (hx : s.tx.req = false) (failed : Bool) :
    Inv (s.complete failed) :=
  Settled.inv_of_idle ⟨h.cfg, h.lastMin, h.capacity, h.nextIdx, h.iter, h.bidx, h.err, h.dbuf⟩ rfl rfl rfl hx

/-- The end of a pass, `LASTMIN` moving to a minute of the day (R226). -/
theorem Control.inv_endPass {s : State} (h : Control s) (hx : s.tx.req = false) {q : Seq} (hq : q.cur ≤ 1439) :
    Inv (State.endPass { s with seq := q }) :=
  Settled.inv_of_idle ⟨h.cfg, hq, h.capacity, h.nextIdx, h.iter, h.bidx, h.err, h.dbuf⟩ rfl rfl rfl hx

/-- A transaction has begun (R133, R134). -/
theorem Control.inv_startXfer {s : State} (h : Control s) (kind : XKind) (dev : DevAddr) (aw : BitVec 2) (off : Half)
    (n : Byte) (hidle : s.seq.task ≠ .idle) (htx : s.seq.task.transmitting = false)
    (hcount : s.seq.task = .cntValid → s.seq.cidx < s.capacity) : Inv (s.startXfer kind dev aw off n) where
  cfg := h.cfg
  lastMin := h.lastMin
  capacity := h.capacity
  nextIdx := h.nextIdx
  iter := BitVec.le_def.2 (Nat.zero_le _)
  iterLive := fun _ => maxIter_pos h.cfg
  bidx := BitVec.le_def.2 (Nat.zero_le _)
  bidxData := by simp
  bidxDone := by simp
  code := by simp
  idle := by simp [h.busy]
  running := fun _ => ⟨hidle, by simp [htx]⟩
  txReq := h.txReq
  scan := h.scan
  count := hcount
  loadCfg := h.loadCfg
  err := h.err
  dbuf := h.dbuf

/-- A transmission waits (R47). -/
theorem Control.inv_transmit {s : State} (h : Control s) {more : Bool} (ht : s.seq.task = .dueScan more) :
    Inv (s.transmit more) where
  cfg := h.cfg
  lastMin := h.lastMin
  capacity := h.capacity
  nextIdx := h.nextIdx
  iter := h.iter
  iterLive := by simp [State.transmit, h.pstate, PState.live]
  bidx := h.bidx
  bidxData := by simp [State.transmit, h.pstate]
  bidxDone := by simp [State.transmit, h.pstate]
  code := by simp [State.transmit, h.pstate]
  idle := by simp [State.transmit, h.busy]
  running := fun _ => ⟨nofun, by simp [State.transmit, Task.transmitting, h.pstate]⟩
  txReq := rfl
  scan := fun _ => h.scan (by rw [ht]; rfl)
  count := nofun
  loadCfg := nofun
  err := h.err
  dbuf := h.dbuf

theorem transmitting_of_op {k : Task} (h : k.op ≠ .dueTime) : k.transmitting = false := by
  cases k <;> simp [Task.op, Task.transmitting] at h ⊢

/-- Whatever an operation does, it gives control back in a state that meets the invariant. -/
theorem Acts.inv {s t : State} (h : Acts s t) (hc : Control s) : Inv t := by
  induction h with
  | complete failed ht => exact hc.inv_complete (by rw [hc.txReq]; exact transmitting_of_op ht) failed
  | endCount n ht => exact (hc.inv_complete (by rw [hc.txReq, ht]; rfl) false).congr rfl
  | failPass ht => exact (hc.inv_complete (by rw [hc.txReq, ht]; rfl) true).congr rfl
  | noScan q ht hgood hcur _ _ =>
    exact hc.inv_endPass (by rw [hc.txReq, ht]; rfl) (by rw [hcur]; exact minuteOfDay_le hgood)
  | endPass more ht => exact hc.inv_endPass (by rw [hc.txReq, ht]; rfl) (hc.scan (by rw [ht]; rfl)).1
  | transmit more ht _ => exact hc.inv_transmit ht
  | xfer kind dev aw off n hidle htx _ hcount _ _ => exact hc.inv_startXfer kind dev aw off n hidle htx hcount
  | raise c _ ih => exact ih { hc with err := FailCode.code_le c }
  | latchTime _ _ ih => exact ih { hc with }
  | @load s t hw cap ok ht hcap _ ih =>
    refine ih { hc with capacity := hcap, nextIdx := ?_, scan := fun hs => ?_ }
    · rw [(hc.loadCfg ht).2]
      by_cases hz : cap = 0
      · exact .inr ⟨hz, rfl⟩
      · exact .inl (by bv_omega)
    · exact absurd (show s.seq.task.scanning = true from hs) (by rw [ht]; decide)
  | countUp _ _ ih => exact ih { hc with }
  | window more wfrom wto ht hgood hwto hidx _ ih =>
    have hcur := minuteOfDay_le hgood
    refine ih { hc with txReq := ?_, scan := fun _ => ⟨hcur, ?_, hidx⟩, loadCfg := nofun }
    · exact hc.txReq.trans (by rw [ht]; rfl)
    · rcases hwto with rfl | rfl
      · exact BitVec.le_trans hcur (by decide)
      · exact (by decide : Config.dayMinutes ≤ 1440)
  | rescan ht _ ih =>
    obtain ⟨hcur, _, hidx⟩ := hc.scan (by rw [ht]; rfl)
    exact ih { hc with txReq := hc.txReq.trans (by rw [ht]; rfl),
                       scan := fun _ => ⟨hcur, BitVec.le_trans hcur (by decide), hidx⟩, loadCfg := nofun }
  | @moveCursor s t more n ht hn _ ih =>
    obtain ⟨hcur, hwto, hidx⟩ := hc.scan (by rw [ht]; rfl)
    have hlt : n < s.capacity := by
      rcases hn with rfl | rfl
      · bv_omega
      · exact nextAfter_lt hidx
    exact ih { hc with nextIdx := .inl hlt, scan := fun _ => ⟨hcur, hwto, hlt⟩,
                       loadCfg := fun hl => absurd (ht.symm.trans hl) nofun }
  | acked more ht _ ih =>
    exact ih { hc with txReq := rfl, scan := fun _ => hc.scan (by rw [ht]; rfl), loadCfg := nofun }

/-! ### A status taken by the engine -/

theorem verdict_cont_live {cfg : Params} {b : Bte} {st : Byte} {p : PState} (hl : b.pstate.live = true)
    (h : verdict cfg b st = .cont p) : p.live = true ∧ ¬ (b.pstate = .slaw ∧ st = stSlawNack) := by
  rcases verdict_cont_cases hl h with ⟨hp, rfl⟩ | ⟨_, rfl, rfl | rfl⟩ | ⟨hp, rfl⟩ | ⟨hp, _, rfl⟩ | ⟨hp, _, rfl⟩ |
    ⟨hp, rfl⟩ | ⟨hp, rfl⟩ | ⟨hp, rfl⟩ | ⟨hp, rfl⟩
  case inr.inl.inl | inr.inl.inr => exact ⟨rfl, fun hn => absurd hn.2 (by decide)⟩
  all_goals exact ⟨rfl, fun hn => by rw [hp] at hn; cases hn.1⟩

/-- Where `RetryFromStart` follows a select-NACK, the bound is not reached (R137). -/
theorem verdict_restart_iter {cfg : Params} {b : Bte} {st : Byte} (h : verdict cfg b st = .restart)
    (hps : b.pstate = .slaw) (hst : st = stSlawNack) : b.iter + 1 < cfg.maxIter := by
  subst hst
  have hlt : b.iter + 1#8 < cfg.maxIter := by simpa [verdict, hps] using h
  exact hlt

/-- `ITER` stays within the bound (R36). -/
theorem observe_iter_le (st d : Byte) {s : State} (h : s.bte.iter < s.cfg.maxIter) :
    (s.observe st d).bte.iter ≤ s.cfg.maxIter := by
  rw [observe_iter]
  split <;> bv_omega

theorem Inv.dbuf_of_engineStep {s u : State} (h : Inv s) (he : EngineStep s u) :
    Memory.wf u.dbuf = true ∧ Memory.below Config.dbufSize u.dbuf = true := by
  rcases he.dbuf with hd | ⟨_, _, d, hd⟩ <;> rw [hd]
  · exact h.dbuf
  · exact ⟨Memory.wf_write h.dbuf.1 _ _, Memory.below_write h.dbuf.2 s.bte.bufIndex.isLt _⟩

/-- The engine is still at its transaction: what is left to prove of the invariant. -/
theorem Inv.of_engineStep {s u : State} (h : Inv s) (hb : s.busy = true) (hl : s.bte.pstate.live = true)
    (he : EngineStep s u) (herr : u.err = s.err) (hidle : u.bte.pstate ≠ .idle) (hiter : u.bte.iter ≤ s.cfg.maxIter)
    (hlive : u.bte.pstate.live = true → u.bte.iter < s.cfg.maxIter)
    (hcode : u.bte.pstate = .stopFail → 1 ≤ u.bte.xcode.code ∧ u.bte.xcode.code ≤ 4) : Inv u := by
  obtain ⟨hne, htx⟩ := h.running hb
  have hps : s.bte.pstate ≠ .idle := fun hps => by rw [hps] at hl; cases hl
  have hnot : ¬ s.seq.task.transmitting = true := fun ht => hps (htx.1 ht)
  obtain ⟨hle, hdata, hdone⟩ := he.fits h.fits
  have hdbuf := h.dbuf_of_engineStep he
  rw [he.frame]
  exact ⟨h.cfg, h.lastMin, h.capacity, h.nextIdx, hiter, hlive, hle, hdata, hdone, hcode, by simp [hb],
    fun _ => ⟨hne, ⟨fun ht => absurd ht hnot, fun hi => absurd hi hidle⟩⟩, h.txReq, h.scan, h.count, h.loadCfg,
    by rw [herr]; exact h.err, hdbuf⟩

/-- The engine has ended a transaction: its operation has control. -/
theorem Inv.control_of_engineStep {s u : State} (h : Inv s) (hb : s.busy = true) (he : EngineStep s u)
    (hidle : u.bte.pstate = .idle) (hiter : u.bte.iter ≤ s.cfg.maxIter) (herr : u.err ≤ 8) : Control u := by
  have hle := (he.fits h.fits).le
  have hdbuf := h.dbuf_of_engineStep he
  rw [he.frame]
  exact ⟨⟨h.cfg, h.lastMin, h.capacity, h.nextIdx, hiter, hle, herr, hdbuf⟩, hb, hidle, h.txReq, h.scan, h.loadCfg⟩

/-- The engine takes a status: the transaction goes on, or has ended. -/
theorem inv_bteStatus (st d : Byte) {s : State} (h : Inv s) (hb : s.busy = true) (hl : s.bte.pstate.live = true)
    (hd : s.bte.pstate = .rdata ∨ s.bte.pstate = .wdata → s.bte.atEnd = false) :
    ((bteStatus st d s).2 = none ∧ Inv (bteStatus st d s).1) ∨
      ((bteStatus st d s).2 ≠ none ∧ Control (bteStatus st d s).1) := by
  have he := engineStep_bteStatus st d hl hd
  have hle := observe_iter_le st d (h.iterLive hl)
  have herr : (s.observe st d).err = s.err := by rw [observe_frame]
  have habort : ∀ c, 1 ≤ c.code ∧ c.code ≤ 4 → EngineStep s ((s.observe st d).abort c) →
      Inv ((s.observe st d).abort c) := fun c hc he' =>
    h.of_engineStep hb hl he' herr nofun hle nofun (fun _ => hc)
  cases hv : verdict s.cfg s.bte st with
  | cont p =>
    have hbs : bteStatus st d s = ((s.observe st d).enter p, none) := by simp [bteStatus, hv]
    rw [hbs] at he ⊢
    refine .inl ⟨rfl, ?_⟩
    obtain ⟨hlive, hnack⟩ := verdict_cont_live hl hv
    have hiter : (s.observe st d).bte.iter = s.bte.iter := by rw [observe_iter, if_neg hnack]
    rcases enter_pstate p (s.observe st d) with ⟨_, _, hen⟩ | ⟨_, hen⟩ <;> dsimp only at he ⊢ <;> rw [hen] at he ⊢
    · exact h.of_engineStep hb hl he herr nofun hle nofun nofun
    · refine h.of_engineStep hb hl he herr (fun hi => ?_) hle (fun _ => ?_) (fun hf => ?_)
      · rw [show p = .idle from hi] at hlive; cases hlive
      · exact hiter ▸ h.iterLive hl
      · rw [show p = .stopFail from hf] at hlive; cases hlive
  | restart =>
    have hbs : bteStatus st d s = ((s.observe st d).restart, none) := by simp [bteStatus, hv]
    rw [hbs] at he ⊢
    refine .inl ⟨rfl, h.of_engineStep hb hl he herr nofun hle (fun _ => ?_) nofun⟩
    rw [restart_bte]
    change (s.observe st d).bte.iter < _
    rw [observe_iter]
    split
    · next hn => exact verdict_restart_iter hv hn.1 hn.2
    · exact h.iterLive hl
  | abort c =>
    have hbs : bteStatus st d s = ((s.observe st d).abort c, none) := by simp [bteStatus, hv]
    rw [hbs] at he ⊢
    refine .inl ⟨rfl, habort c ?_ he⟩
    rcases verdict_abort_code hv with rfl | rfl | rfl <;> decide
  | notStart =>
    cases ho : s.bte.owned with
    | true =>
      have hbs : bteStatus st d s = ((s.observe st d).abort .notStart, none) := by simp [bteStatus, hv, ho]
      rw [hbs] at he ⊢
      exact .inl ⟨rfl, habort .notStart (by decide) he⟩
    | false =>
      have hbs : bteStatus st d s = ((s.observe st d).exitNoStop, some .failed) := by simp [bteStatus, hv, ho]
      rw [hbs] at he ⊢
      exact .inr ⟨nofun, h.control_of_engineStep hb he rfl hle (FailCode.code_le .notStart)⟩

/-! ### An instant and a run -/

/-- The operation gets control back from the engine, and acts. -/
theorem Inv.finish {s u : State} (h : Inv s) (hb : s.busy = true) (hps : s.bte.pstate ≠ .idle) (hseq : u.seq = s.seq)
    (hc : Control u) (r : XferResult) : Inv (finish r u) := by
  obtain ⟨hne, htx⟩ := h.running hb
  refine (acts_finish r (by rw [hseq]; exact hne) ?_).inv hc
  rw [hseq]
  exact Bool.eq_false_iff.2 fun ht => hps (htx.1 ht)

theorem Inv.logPrim {s : State} (h : Inv s) (e : PrimEvent) : Inv (s.logPrim e) := h.congr rfl

theorem Inv.takeStop {s : State} (h : Inv s) (hb : s.busy = true) (hr : s.request = some .stop) :
    Inv (takeStop s) := by
  have he := engineStep_bteStop (s.logPrim ⟨.stop, none, none⟩)
  have hps : s.bte.pstate ≠ .idle := fun hps => by simp [State.request, hps] at hr
  refine h.finish hb hps (by rw [he.seq]; rfl) ((h.logPrim _).control_of_engineStep hb he ?_ ?_ ?_) _ <;>
    rcases bteStop_cases (s.logPrim ⟨.stop, none, none⟩) with ⟨_, hs⟩ | ⟨_, hs⟩ <;> rw [hs]
  · exact h.iter
  · exact h.iter
  · exact h.err
  · exact FailCode.code_le _

theorem Inv.takeStatus {s : State} (h : Inv s) (hb : s.busy = true) {p : Prim} (hr : s.request = some p)
    (hp : p ≠ .stop) (st d : Byte) : Inv (takeStatus p st d s) := by
  obtain ⟨hl, hd⟩ := live_of_request hr hp
  have hps : s.bte.pstate ≠ .idle := fun hps => by rw [hps] at hl; cases hl
  have he := engineStep_bteStatus st d (s := s.logPrim ⟨p, some st, p.returns d⟩) hl hd
  rcases inv_bteStatus st d (h.logPrim ⟨p, some st, p.returns d⟩) hb hl hd with ⟨hn, hi⟩ | ⟨hs, hc⟩
  · rwa [takeStatus_none hn]
  · obtain ⟨r, hr⟩ := Option.ne_none_iff_exists'.1 hs
    rw [takeStatus_some hr]
    exact h.finish hb hps (by rw [he.seq]; rfl) hc r

/-- Where no primitive is requested, a transmission waits, and nothing happens. -/
theorem Inv.enter_of_noRequest {s : State} (h : Inv s) (hr : s.request = none) : s.enter s.bte.pstate = s := by
  have hps : s.bte.pstate = .idle := by
    have hdata : s.bte.pstate = .rdata ∨ s.bte.pstate = .wdata → s.bte.atEnd = false := fun hd => by
      have hlt := h.bidxData hd
      simp only [Bte.atEnd, beq_eq_false_iff_ne, ne_eq]
      bv_omega
    cases hps : s.bte.pstate <;> simp [State.request, hps] at hr ⊢
    · rw [hdata (.inl hps)] at hr
      cases hlast : s.bte.lastByte <;> simp [hlast] at hr
    · rw [hdata (.inr hps)] at hr
      cases hr
  rw [hps]
  rcases enter_pstate .idle s with ⟨hp, _⟩ | ⟨_, he⟩
  · simp at hp
  · rw [he, ← hps]

theorem Inv.seqStep {s : State} (h : Inv s) (hb : s.busy = true) (i : Instant) : Inv (seqStep i s) := by
  rcases seqStep_cases i s with he | ⟨more, ht, he⟩ | ⟨hr, he⟩ | ⟨hr, he⟩ | ⟨p, st, d, hr, hp, _, he⟩ <;> rw [he]
  · exact h
  · obtain ⟨_, htx⟩ := h.running hb
    exact (acts_txDone ht).inv ⟨h.settled, hb, htx.1 (by rw [ht]; rfl), h.txReq, h.scan, h.loadCfg⟩
  · rwa [h.enter_of_noRequest hr]
  · exact h.takeStop hb hr
  · exact h.takeStatus hb hr hp st d

/-- The block right after RESET, whatever its build parameters (R54). -/
theorem settled_reset {p : Params} (h : p.wf = true) (e : Env) : Settled { State.reset with cfg := p, env := e } where
  cfg := h
  lastMin := (by decide : (0 : Minute) ≤ 1439)
  capacity := BitVec.le_def.2 (Nat.zero_le _)
  nextIdx := .inr ⟨rfl, rfl⟩
  iter := BitVec.le_def.2 (Nat.zero_le _)
  bidx := BitVec.le_def.2 (Nat.zero_le _)
  err := (by decide : (0 : Byte) ≤ 8)
  dbuf := ⟨rfl, rfl⟩

theorem inv_reset {p : Params} (h : p.wf = true) (e : Env) : Inv { State.reset with cfg := p, env := e } :=
  (settled_reset h e).inv_of_idle rfl rfl rfl rfl

theorem inv_resetInstant (i : Instant) {s : State} (h : s.cfg.wf = true) : Inv (resetInstant i s) := by
  unfold resetInstant
  split
  · exact (inv_reset h { s.env with resets := s.env.resets + 1 }).congr rfl
  · exact inv_reset h _

theorem Inv.busyInstant {s : State} (h : Inv s) (hb : s.busy = true) (i : Instant) : Inv (busyInstant i s) := by
  rcases busyInstant_cases i s with ⟨_, he⟩ | ⟨_, he⟩ <;> rw [he]
  · exact inv_resetInstant i h.cfg
  · have hh : Inv (i.onHost State.busyHost s) := by
      unfold Instant.onHost
      split
      · next a _ =>
        rcases busyHost_cases a s with ⟨_, _, he⟩ | ⟨_, he⟩ | ⟨_, he⟩ | he <;> rw [he] <;> exact h.congr rfl
      · exact h
    have hbusy := (onHost_busyHost_seq i s).2.2.2.1
    exact (hh.seqStep (hbusy.trans hb) i).congr rfl

theorem Inv.run {s : State} (h : Inv s) (l : List Instant) : Inv (run l s) :=
  run_invariant (P := Inv) (Q := fun _ => True) trivial (fun _ _ h => h.congr rfl)
    (fun i _ _ hb h => h.busyInstant hb i) l (fun _ _ => trivial) s h

/-! ### An idle block -/

/-- The operations of an idle block begin with the parts of the invariant in hand. -/
theorem Inv.control_of_idle {s t : State} (h : Inv s) (hb : s.busy = false)
    (he : t = { s with cmd := t.cmd, src := t.src, busy := true, err := 0, seq := t.seq })
    (hscan : t.seq.task.scanning = false) (hload : t.seq.task ≠ .loadCfg) : Control t := by
  obtain ⟨hps, ht⟩ := h.idle hb
  have hx : s.tx.req = t.seq.task.transmitting := by
    have htx : t.seq.task.transmitting = false := by
      cases hk : t.seq.task <;> simp [hk, Task.scanning, Task.transmitting] at hscan ⊢
    rw [h.txReq, ht, htx]; rfl
  rw [he]
  exact ⟨⟨h.cfg, h.lastMin, h.capacity, h.nextIdx, h.iter, h.bidx, (by decide : (0 : Byte) ≤ 8), h.dbuf⟩, rfl, hps, hx,
    fun hs => absurd (hscan.symm.trans hs) nofun, fun hl => absurd hl hload⟩

/-- LOADCFG zeroes the cursor first (R187). -/
theorem Control.begun_loadcfg {s : State} (h : Control s) (hx : s.tx.req = false) : Control (s.begun .loadcfg) where
  cfg := h.cfg
  lastMin := (by decide : (0 : Minute) ≤ 1439)
  capacity := h.capacity
  nextIdx := by
    rcases h.nextIdx with hlt | ⟨hc, _⟩
    · exact .inl (show 0 < s.capacity by bv_omega)
    · exact .inr ⟨hc, rfl⟩
  iter := h.iter
  bidx := h.bidx
  err := h.err
  dbuf := h.dbuf
  busy := h.busy
  pstate := h.pstate
  txReq := hx
  scan := fun hs => absurd (show false = true from hs) (by decide)
  loadCfg := fun _ => ⟨rfl, rfl⟩

theorem Inv.control_begun {s : State} (h : Inv s) (hb : s.busy = false) (c : Byte) (i : Instr) :
    Control ((s.commandStart c).begun i) := by
  cases i with
  | loadcfg =>
    have hc : Control (s.commandStart c) :=
      h.control_of_idle (t := s.commandStart c) hb rfl (by simp [(h.idle hb).2, Task.scanning]) (by simp [(h.idle hb).2])
    exact hc.begun_loadcfg (by rw [hc.txReq]; simp [(h.idle hb).2, Task.transmitting])
  | _ => exact h.control_of_idle hb rfl rfl nofun

theorem Inv.accept {s : State} (h : Inv s) (hb : s.busy = false) (c : Byte) : Inv (accept c (byteBody c) s) := by
  rcases accept_cases hb c with ⟨_, he⟩ | ⟨_, he⟩ <;> rw [he]
  · exact h.congr rfl
  · obtain ⟨i, hbegun, _⟩ := begunBy_eq c (s.commandStart c)
    have ha := acts_byteBody c (s.commandStart c)
    rw [hbegun] at ha
    exact (ha.inv (h.control_begun hb c i)).run _

/-- A host write to `DBUF` keeps it canonical and within its bytes (R30). -/
theorem writeReg_dbuf (a : HostAddr) (v : Byte) {s : State}
    (h : Memory.wf s.dbuf = true ∧ Memory.below Config.dbufSize s.dbuf = true) :
    Memory.wf (s.writeReg a v).dbuf = true ∧ Memory.below Config.dbufSize (s.writeReg a v).dbuf = true := by
  unfold State.writeReg
  split
  · exact ⟨Memory.wf_write h.1 _ _, Memory.below_write h.2 (BitVec.isLt _) _⟩
  · split <;> exact h

theorem Inv.heard {s : State} (h : Inv s) (i : Instant) : Inv (s.heard i) := by
  have hdbuf : Memory.wf (s.heard i).dbuf = true ∧ Memory.below Config.dbufSize (s.heard i).dbuf = true := by
    unfold State.heard Instant.onHost
    split
    · next a _ =>
      cases a with
      | read a => exact h.dbuf
      | write a v => exact writeReg_dbuf a v h.dbuf
    · exact h.dbuf
  rw [heard_frame]
  exact ⟨h.cfg, h.lastMin, h.capacity, h.nextIdx, h.iter, h.iterLive, h.bidx, h.bidxData, h.bidxDone, h.code, h.idle,
    h.running, h.txReq, h.scan, h.count, h.loadCfg, h.err, hdbuf⟩

theorem Inv.idleInstant {s : State} (h : Inv s) (hb : s.busy = false) (i : Instant) : Inv (idleInstant i s) := by
  rcases idleInstant_cases i s with ⟨_, he⟩ | ⟨_, he⟩ <;> rw [he]
  · exact ((acts_checkDue .normal _).inv
      ((h.heard i).control_of_idle ((heard_busy i s).trans hb) rfl rfl nofun)).run _
  · exact h.heard i

theorem Inv.instant {s : State} (h : Inv s) (i : Instant) : Inv (instant i s) := by
  cases hr : i.reset with
  | true => rw [instant_reset hr]; exact inv_resetInstant i h.cfg
  | false =>
    rcases instant_cases hr s with ⟨hb, he⟩ | ⟨hb, c, _, he⟩ | ⟨hb, _, he⟩ <;> rw [he]
    · exact h.busyInstant hb i
    · exact Inv.accept (s := s.latchTick i.tick) (h.congr rfl) hb c
    · exact h.idleInstant hb i

/-- Settles O59: a step is one instant, and an instant of any kind keeps the invariant. -/
theorem stepKeepsInv : Obligations.StepKeepsInv := by
  intro s t h he
  obtain ⟨i, rest, _, hs⟩ := step_eq_instant s
  rw [← Host.Outcome.next.inj (hs.symm.trans he)]
  exact Inv.instant (s := s.withInputs rest) (h.congr rfl) i

/-- Settles O58. -/
theorem resetInv : Obligations.ResetInv := inv_reset (p := Params.default) (by decide) State.reset.env

end Sys2Proof.Machine
end

section
/-! The host port (spec/10_state.md R22, R23, R52, R53): the register map, reads and writes of an idle and of a busy block,
commands that are discarded, RESET. -/

namespace Sys2Proof.Machine

/-! ### Bits and bytes of the register map -/

theorem getLsbD_bit (b : Bool) (k n : Nat) (hk : k < 8) : (bit b k).getLsbD n = (b && decide (n = k)) := by
  cases b with
  | false => simp [bit]
  | true =>
    simp only [bit, if_true, BitVec.getLsbD_ofNat, Nat.testBit_two_pow, Bool.true_and]
    by_cases h : n = k
    · simp [h, hk]
    · simp [h, Ne.symm h]

theorem statusByte_getLsbD (s : State) (n : Nat) :
    s.statusByte.getLsbD n =
      ((s.busy && decide (n = 0)) || (s.fail && decide (n = 1)) || (s.tickp && decide (n = 2)) ||
        (s.ovr && decide (n = 3)) || (s.cfgok && decide (n = 4)) || (s.halted && decide (n = 5)) ||
        (s.src && decide (n = 6))) := by
  simp [State.statusByte, getLsbD_bit]

theorem ctrlByte_getLsbD (s : State) (n : Nat) :
    s.ctrlByte.getLsbD n = ((s.tickEn && decide (n = 0)) || (s.halt && decide (n = 1))) := by
  simp [State.ctrlByte, getLsbD_bit]

theorem ctrlByte_reserved (s : State) (k : Nat) (hk : 2 ≤ k) : s.ctrlByte.getLsbD k = false := by
  have h0 : k ≠ 0 := by omega
  have h1 : k ≠ 1 := by omega
  simp [ctrlByte_getLsbD, h0, h1]

/-- Settles O53: each flag stands in its own bit. -/
theorem statusBits : Obligations.StatusBits := by
  intro s
  have hstatus : ∀ n, (s.readReg 0x001).getLsbD n = s.statusByte.getLsbD n := fun _ => rfl
  have hctrl : ∀ n, (s.readReg 0x002).getLsbD n = s.ctrlByte.getLsbD n := fun _ => rfl
  refine ⟨?_, ?_, ?_, ?_, ?_, ?_, ?_, ?_, ?_, ?_, ctrlByte_reserved s⟩ <;>
    simp only [hstatus, hctrl, statusByte_getLsbD, ctrlByte_getLsbD, State.halted] <;> simp

/-- A 16-bit register is its two bytes (R23). -/
theorem half_bytes (h : Half) : h.extractLsb' 8 8 ++ h.extractLsb' 0 8 = h := by
  rw [BitVec.extractLsb'_append_extractLsb'_eq_extractLsb' (by omega)]
  exact BitVec.extractLsb'_eq_self

/-- `LASTMIN` has 11 bits; the others of its two bytes read 0 (R38). -/
theorem minute_bytes (m : Minute) : (m.extractLsb' 8 8 ++ m.extractLsb' 0 8 : Half) = m.setWidth 16 := by
  rw [BitVec.extractLsb'_append_extractLsb'_eq_extractLsb' (by omega)]
  refine BitVec.eq_of_toNat_eq ?_
  rw [BitVec.extractLsb'_toNat, BitVec.toNat_setWidth, Nat.shiftRight_zero]

theorem word_bytes (w : BitVec 32) :
    (w.extractLsb' 24 8 ++ w.extractLsb' 16 8 : Half) ++ (w.extractLsb' 8 8 ++ w.extractLsb' 0 8 : Half) = w := by
  rw [BitVec.extractLsb'_append_extractLsb'_eq_extractLsb' (by omega),
    BitVec.extractLsb'_append_extractLsb'_eq_extractLsb' (by omega),
    BitVec.extractLsb'_append_extractLsb'_eq_extractLsb' (by omega)]
  exact BitVec.extractLsb'_eq_self

/-! ### The addresses -/

theorem addr_bit8 (a : HostAddr) : a.getLsbD 8 = true ↔ 256 ≤ a.toNat := by
  have := a.isLt
  rw [← BitVec.testBit_toNat, Nat.testBit_eq_decide_div_mod_eq]
  simp only [decide_eq_true_eq]
  omega

theorem readReg_of_dbuf {a : HostAddr} (h : 256 ≤ a.toNat) (s : State) : s.readReg a = s.dbufGet (a.setWidth 8) := by
  rw [State.readReg, if_pos ((addr_bit8 a).2 h)]

/-- Reserved addresses read 0 (R52). -/
theorem readReg_reserved {a : HostAddr} (hlo : 0x024 ≤ a) (hhi : a ≤ 0x0FF) (s : State) : s.readReg a = 0 := by
  have hn : 36 ≤ a.toNat ∧ a.toNat ≤ 255 := ⟨BitVec.le_def.1 hlo, BitVec.le_def.1 hhi⟩
  rw [State.readReg, if_neg (by rw [addr_bit8]; omega)]
  split
  any_goals omega
  rfl

/-- Read-only and reserved addresses ignore a write (R52). -/
theorem writeReg_ignored {a : HostAddr} (h : a = 0x001 ∨ a = 0x003 ∨ a = 0x008 ∨ (0x00B ≤ a ∧ a ≤ 0x0FF)) (v : Byte)
    (s : State) : s.writeReg a v = s := by
  rcases h with rfl | rfl | rfl | ⟨hlo, hhi⟩
  · rfl
  · rfl
  · rfl
  · have hn : 11 ≤ a.toNat ∧ a.toNat ≤ 255 := ⟨BitVec.le_def.1 hlo, BitVec.le_def.1 hhi⟩
    rw [State.writeReg, if_neg (by rw [addr_bit8]; omega)]
    split
    any_goals omega
    rfl

/-- What the operand registers show at an address (R24 to R26, R28). -/
def operandAt (o : OpRegs) (b : HostAddr) : Option Byte :=
  if b = 0x004 then some o.dev
  else if b = 0x005 then some (o.off.extractLsb' 0 8)
  else if b = 0x006 then some (o.off.extractLsb' 8 8)
  else if b = 0x007 then some o.len
  else if b = 0x009 then some (o.idx.extractLsb' 0 8)
  else if b = 0x00A then some (o.idx.extractLsb' 8 8)
  else none

/-- The operand registers show at their own addresses and nowhere else. -/
theorem readReg_withOps (s : State) (o : OpRegs) (b : HostAddr) :
    ({ s with ops := o } : State).readReg b = (operandAt o b).getD (s.readReg b) := by
  unfold operandAt
  split_ifs with h4 h5 h6 h7 h9 hA
  case neg =>
    unfold State.readReg
    split
    · rfl
    · split
      any_goals rfl
      all_goals bv_omega
  all_goals subst_vars; rfl

theorem low_setLow (h : Half) (v : Byte) :
    (setLow h v).extractLsb' 0 8 = v ∧ (setLow h v).extractLsb' 8 8 = h.extractLsb' 8 8 :=
  ⟨BitVec.extractLsb'_append_eq_right, BitVec.extractLsb'_append_eq_left⟩

theorem high_setHigh (h : Half) (v : Byte) :
    (setHigh h v).extractLsb' 8 8 = v ∧ (setHigh h v).extractLsb' 0 8 = h.extractLsb' 0 8 :=
  ⟨BitVec.extractLsb'_append_eq_left, BitVec.extractLsb'_append_eq_right⟩

/-- A write of an operand register: its own address shows the byte, the others what they showed (R23). -/
theorem writeReg_operand {a : HostAddr} (h : (0x004 ≤ a ∧ a ≤ 0x007) ∨ a = 0x009 ∨ a = 0x00A) (v : Byte) (s : State) :
    ∃ o, s.writeReg a v = { s with ops := o } ∧
      ∀ b, operandAt o b = if b = a then some v else operandAt s.ops b := by
  have ha : a = 0x004 ∨ a = 0x005 ∨ a = 0x006 ∨ a = 0x007 ∨ a = 0x009 ∨ a = 0x00A := by bv_omega
  rcases ha with rfl | rfl | rfl | rfl | rfl | rfl <;> refine ⟨_, rfl, fun b => ?_⟩ <;>
    simp only [operandAt, low_setLow, high_setHigh] <;> split_ifs <;> simp_all

/-- What a host read of an idle block shows after a write of a writable register (R23 to R30). -/
theorem readReg_writeReg {a : HostAddr} (h : (0x004 ≤ a ∧ a ≤ 0x007) ∨ a = 0x009 ∨ a = 0x00A ∨ 0x100 ≤ a) (v : Byte)
    (s : State) (b : HostAddr) : (s.writeReg a v).readReg b = if b = a then v else s.readReg b := by
  have hcases : ((0x004 ≤ a ∧ a ≤ 0x007) ∨ a = 0x009 ∨ a = 0x00A) ∨ 0x100 ≤ a := by
    rcases h with h | h | h | h
    · exact .inl (.inl h)
    · exact .inl (.inr (.inl h))
    · exact .inl (.inr (.inr h))
    · exact .inr h
  rcases hcases with hop | hdb
  · obtain ⟨o, he, hb⟩ := writeReg_operand hop v s
    rw [he, readReg_withOps, hb]
    split
    · rfl
    · rw [← readReg_withOps]
  · have ha : 256 ≤ a.toNat := BitVec.le_def.1 hdb
    rw [State.writeReg, if_pos ((addr_bit8 a).2 ha)]
    by_cases hb8 : 256 ≤ b.toNat
    · rw [readReg_of_dbuf hb8, readReg_of_dbuf hb8, dbufGet_dbufSet]
      have hiff : b.setWidth 8 = a.setWidth 8 ↔ b = a := by bv_omega
      simp only [hiff]
    · have hne : b ≠ a := by rintro rfl; exact hb8 ha
      rw [if_neg hne, State.readReg, State.readReg, if_neg (by rwa [addr_bit8]), if_neg (by rwa [addr_bit8])]
      rfl

end Sys2Proof.Machine
end

section
/-! The statements on the host port, on discarded commands and on RESET. -/

namespace Sys2Proof.Machine

/-! ### Commands and steps -/

/-- Settles O4. -/
theorem stepRunsDecoded : Obligations.StepRunsDecoded := by
  intro s i inst rest _ hb hr hhost hin
  have hc : inst.cmdWrite? = some (encodeByte i) := by simp [Instant.cmdWrite?, hhost]
  rw [step_listed hin, instant_command (s := s.withInputs rest) hr hb hc, byteBody_encodeByte, exec_eq_accept]

/-- Settles O7. -/
theorem commandDiscarded : Obligations.CommandDiscarded := by
  intro i s h
  rw [exec_eq_accept, accept_discard h]
  rfl

/-! ### An idle block -/

/-- One listed instant of an idle block after which no tick run starts. -/
theorem step_idle {s : State} {i : Instant} {rest : List Instant} (hin : s.env.inputs = i :: rest) (hr : i.reset = false)
    (hb : s.busy = false) (hc : i.cmdWrite? = none) (ht : ((s.withInputs rest).heard i).tickReady = false) :
    step s = .next ((s.withInputs rest).heard i) := by
  rw [step_listed hin, instant_idle (s := s.withInputs rest) hr hb hc, idleInstant_eq, ht]
  rfl

/-- An instant with one host access. -/
abbrev Instant.access (h : HostAccess) : Instant := { host := some h }

theorem heard_access (h : HostAccess) (s : State) : s.heard (.access h) = s.idleHost h := by
  simp [State.heard, Instant.onHost]

/-- Settles O49. -/
theorem idleRead : Obligations.IdleRead := by
  refine ⟨fun s a rest hb ht hin => ?_, fun s => ?_⟩
  · rw [step_idle hin rfl hb rfl (by rw [heard_access]; exact ht), heard_access]
    rfl
  · refine ⟨rfl, rfl, rfl, half_bytes _, rfl, rfl, half_bytes _, half_bytes _, half_bytes _, rfl, minute_bytes _,
      half_bytes _, rfl, rfl, rfl, rfl, rfl, rfl, rfl, rfl, rfl, word_bytes _, rfl, rfl, rfl, fun k => ?_⟩
    have ha : 256 ≤ (0x100 + k.setWidth 9 : HostAddr).toNat := by have := k.isLt; bv_omega
    have hk : (0x100 + k.setWidth 9 : HostAddr).setWidth 8 = k := by bv_omega
    rw [readReg_of_dbuf ha, hk]

theorem cmdWrite?_write {a : HostAddr} (h : a ≠ 0) (v : Byte) : (Instant.access (.write a v)).cmdWrite? = none := by
  simp only [Instant.cmdWrite?]
  exact if_neg h

/-- Settles O51. -/
theorem reservedAddresses : Obligations.ReservedAddresses := by
  refine ⟨fun s a hlo hhi => readReg_reserved hlo hhi s, fun s => ⟨?_, ?_, ?_⟩, ?_⟩
  · obtain ⟨_, _, _, _, _, _, _, hreserved, _⟩ := statusBits s
    exact hreserved
  · exact ctrlByte_reserved s
  · intro k hk
    have hl := s.cursor.lastMin.isLt
    change (s.cursor.lastMin.extractLsb' 8 8).getLsbD k = false
    rw [BitVec.getLsbD_extractLsb', BitVec.getLsbD_of_ge _ _ (by omega), Bool.and_false]
  · intro s a v rest hb ht ha hin
    have ha0 : a ≠ 0 := by bv_omega
    have hw : (s.withInputs rest).heard (.access (.write a v)) = s.withInputs rest := by
      rw [heard_access]; exact writeReg_ignored ha v _
    rw [step_idle hin rfl hb (cmdWrite?_write ha0 v) (by rw [hw]; exact ht), hw]

/-- A write of a writable register leaves everything else alone. -/
theorem writeReg_writable {a : HostAddr} (h : (0x004 ≤ a ∧ a ≤ 0x007) ∨ a = 0x009 ∨ a = 0x00A ∨ 0x100 ≤ a) (v : Byte)
    (s : State) : s.writeReg a v = { s with ops := (s.writeReg a v).ops, dbuf := (s.writeReg a v).dbuf } := by
  have ha : a ≠ 0x002 := by bv_omega
  have hctrl : ¬ a.toNat = 2 := fun he => ha (BitVec.eq_of_toNat_eq he)
  unfold State.writeReg
  split
  · rfl
  · split
    · exact absurd ‹_› hctrl
    all_goals rfl

/-- Settles O52. -/
theorem writeReadBack : Obligations.WriteReadBack := by
  refine ⟨fun s a b v rest hb ht ha hin => ?_, fun s s' v rest hb hs' hin => ?_⟩
  · have hne : a ≠ 0 := by bv_omega
    have hw := writeReg_writable ha v (s.withInputs rest)
    have hready : ((s.withInputs rest).heard (.access (.write a v))).tickReady = false := by
      rw [heard_access]; show ((s.withInputs rest).writeReg a v).tickReady = false
      rw [hw]; exact ht
    refine ⟨_, step_idle hin rfl hb (cmdWrite?_write hne v) hready, ?_, ?_, ?_, ?_⟩ <;> rw [heard_access]
    · exact readReg_writeReg ha v _ b
    · show ((s.withInputs rest).writeReg a v).env.inputs = rest
      rw [hw]; rfl
    · show ((s.withInputs rest).writeReg a v).env.prims = s.env.prims
      rw [hw]; rfl
    · show ((s.withInputs rest).writeReg a v).busy = false
      rw [hw]; exact hb
  · have hheard : (s.withInputs rest).heard (.access (.write 0x002 v)) = s'.withInputs rest := by
      rw [heard_access, hs']; rfl
    have hready : (s'.withInputs rest).tickReady = (!s'.halt && s'.tickEn && s.tickp) := by
      rw [hs']; simp [State.tickReady, State.withInputs, hb]
    have hstep : step s = .next (idleInstant (.access (.write 0x002 v)) (s.withInputs rest)) := by
      rw [step_listed hin, instant_idle (s := s.withInputs rest) rfl hb (cmdWrite?_write (by decide) v)]
    rw [hstep, idleInstant_eq, hheard, hready]
    refine ⟨fun h => ?_, fun hen hh htp => ⟨?_, ?_⟩⟩
    · have hno : (!s'.halt && s'.tickEn && s.tickp) = false := by
        rcases h with h | h | h <;> simp [h]
      rw [hno]; rfl
    · have htp' : (s'.withInputs rest).tickp = true := by rw [hs']; exact htp
      simp only [hen, hh, htp, Bool.not_false, Bool.and_self, if_true]
      rw [tickRun_eq, tickStart_checkDue htp']
      exact congrArg _ (run_withInputs rest rest s'.tickBegun)
    · exact run_nil_waiting ⟨rfl, .inr ⟨.start, rfl, nofun⟩⟩

/-! ### A busy block -/

/-- One host access to a waiting block (R53). -/
theorem step_waiting_access {s : State} (h : Waiting s) {a : HostAccess} {rest : List Instant}
    (hin : s.env.inputs = .access a :: rest) : step s = .next ((s.withInputs rest).busyHost a) := by
  have hw : Waiting (s.withInputs rest) := ⟨h.busy, h.wait⟩
  rw [step_listed hin, instant_busy (s := s.withInputs rest) rfl h.busy, busyInstant_waiting hw rfl rfl rfl]
  exact congrArg _ (latchTick_false _)

/-- Settles O54. -/
theorem busyHostAccess : Obligations.BusyHostAccess := by
  intro s a v rest hw
  refine ⟨fun ha hin => ?_, fun hin => ?_, fun ha hin => ?_, fun hs hc hin => ?_⟩ <;>
    rw [step_waiting_access hw hin, State.busyHost]
  · rw [if_neg ha]; rfl
  · rfl
  · rw [if_pos ha]; rfl
  · rw [if_neg (not_or_intro hs hc)]; rfl

/-! ### RESET -/

/-- RESET puts every register at its reset value; a host read in that instant is one more read of the record (R54,
R300). -/
theorem resetInstant_eq (i : Instant) (s : State) :
    ∃ rs n, resetInstant i s =
      { State.reset with cfg := s.cfg
                         env := { s.env with resets := s.env.resets + 1, reads := rs, draws := n } } := by
  unfold resetInstant
  split <;> exact ⟨_, _, rfl⟩

/-- Settles O57. -/
theorem resetValues : Obligations.ResetValues := by
  intro s i rest hr hin
  obtain ⟨rs, n, he⟩ := resetInstant_eq i (s.withInputs rest)
  refine ⟨_, by rw [step_listed hin, instant_reset hr, he], ?_⟩
  have hstatus : State.reset.statusByte = 0 := by decide
  have hctrl : State.reset.ctrlByte = 0 := by decide
  refine ⟨rfl, hstatus, hctrl, rfl, rfl, rfl, rfl, rfl, rfl, rfl, rfl, rfl, rfl, rfl, rfl, rfl, rfl, rfl, rfl, rfl, rfl, rfl,
    rfl, rfl, rfl, rfl, rfl, rfl, rfl, rfl, rfl, rfl, fun _ => rfl⟩

end Sys2Proof.Machine
end

section
/-! Host reads have no effect (R22). Erasing them, `State.forgetReads`, commutes with every operation of the machine: each
lemma `Deaf f` says so of one of them, in the order of the model. -/

namespace Sys2Proof.Machine

/-- `f` takes no notice of host reads: erasing them before or after it is the same. -/
def Deaf (f : State → State) : Prop := ∀ s, f s.forgetReads = (f s).forgetReads

theorem Deaf.comp {f g : State → State} (hf : Deaf f) (hg : Deaf g) : Deaf (fun s => f (g s)) := fun s =>
  (congrArg f (hg s)).trans (hf (g s))

/-- A branch on something the erasing leaves alone. -/
theorem Deaf.ite {c : State → Prop} [∀ s, Decidable (c s)] (hc : ∀ s, c s.forgetReads ↔ c s) {f g : State → State}
    (hf : Deaf f) (hg : Deaf g) : Deaf (fun s => if c s then f s else g s) := fun s => by
  by_cases h : c s
  · simp only [(hc s).2 h, h, if_true, hf s]
  · simp only [mt (hc s).1 h, h, if_false, hg s]

/-! ### The engine -/

theorem deaf_logPrim (e : PrimEvent) : Deaf (State.logPrim · e) := fun _ => rfl

theorem forgetReads_request (s : State) : s.forgetReads.request = s.request := rfl

theorem deaf_observe (st d : Byte) : Deaf (State.observe st d) := fun s => by
  cases hp : s.bte.pstate <;> simp only [State.observe, hp, show s.forgetReads.bte = s.bte from rfl]
  case start | rstart | slaw | rdata | wdata => split <;> rfl
  all_goals rfl

theorem deaf_enter (p : PState) : Deaf (State.enter p) :=
  .ite (c := fun s => (p = .rdata ∨ p = .wdata) ∧ s.bte.atEnd = true) (fun _ => Iff.rfl) (fun _ => rfl) (fun _ => rfl)

theorem forgetReads_bteStatus (st d : Byte) (s : State) :
    bteStatus st d s.forgetReads = ((bteStatus st d s).1.forgetReads, (bteStatus st d s).2) := by
  have hv : verdict s.forgetReads.cfg s.forgetReads.bte st = verdict s.cfg s.bte st := rfl
  simp only [bteStatus, hv, deaf_observe st d s, show s.forgetReads.bte.owned = s.bte.owned from rfl]
  cases verdict s.cfg s.bte st with
  | cont p => simp only [deaf_enter p (s.observe st d)]
  | restart => rfl
  | abort c => rfl
  | notStart => cases s.bte.owned <;> rfl

theorem forgetReads_bteStop (s : State) :
    bteStop s.forgetReads = ((bteStop s).1.forgetReads, (bteStop s).2) := by
  cases hp : s.bte.pstate <;> simp only [bteStop, hp, show s.forgetReads.bte = s.bte from rfl] <;> rfl

/-! ### The operations -/

theorem deaf_readRecord (i : State → Half) (hi : ∀ s, i s.forgetReads = i s) {out : State → State} (h : Deaf out) :
    Deaf (fun s => s.readRecord (i s) out) :=
  .ite (c := fun s => s.capacity ≤ i s) (fun s => by rw [hi s]; rfl) (h.comp fun _ => rfl) fun s => by rw [hi s]; rfl

theorem deaf_writeRecord (i : State → Half) (hi : ∀ s, i s.forgetReads = i s) {out : State → State} (h : Deaf out) :
    Deaf (fun s => s.writeRecord (i s) out) :=
  .ite (c := fun s => s.capacity ≤ i s) (fun s => by rw [hi s]; rfl) (h.comp fun _ => rfl) fun s => by rw [hi s]; rfl

theorem forgetReads_recordResult (r : XferResult) (s : State) :
    recordResult r s.forgetReads = ((recordResult r s).1.forgetReads, (recordResult r s).2) := by
  cases r with
  | failed => rfl
  | ok =>
    simp only [recordResult, show s.forgetReads.bte = s.bte from rfl]
    split <;> rfl

theorem deaf_complete (b : Bool) : Deaf (State.complete b) := fun _ => rfl

theorem deaf_countNext : Deaf State.countNext :=
  .ite (c := fun s => s.seq.cidx < s.capacity) (fun _ => Iff.rfl)
    (deaf_readRecord (fun s => s.seq.cidx) (fun _ => rfl) fun _ => rfl) fun _ => rfl

theorem deaf_endPass : Deaf State.endPass := fun _ => rfl

theorem deaf_fetchLast : Deaf State.fetchLast := deaf_readRecord (fun s => s.cursor.nextIdx) (fun _ => rfl) deaf_endPass

theorem deaf_endScan (more : Bool) : Deaf (State.endScan more) :=
  .ite (c := fun _ => more = true) (fun _ => Iff.rfl)
    (deaf_fetchLast.comp (g := fun s => s.enterScan false 0 s.seq.cur) fun _ => rfl) deaf_endPass

theorem deaf_fetch (more : Bool) : Deaf (State.fetch more) :=
  deaf_readRecord (fun s => s.cursor.nextIdx) (fun _ => rfl) (deaf_endScan more)

theorem deaf_windows : Deaf State.windows :=
  .ite (c := fun s => s.dt.minuteOfDay = s.cursor.lastMin) (fun _ => Iff.rfl) (fun _ => rfl) <|
    .ite (c := fun s => s.cursor.lastMin < s.dt.minuteOfDay) (fun _ => Iff.rfl)
      ((deaf_fetch false).comp
        (g := fun s => State.enterScan false s.cursor.lastMin s.dt.minuteOfDay
          { s with seq := { s.seq with cur := s.dt.minuteOfDay } }) fun _ => rfl)
      ((deaf_fetch true).comp
        (g := fun s => State.enterScan true s.cursor.lastMin Config.dayMinutes
          { s with seq := { s.seq with cur := s.dt.minuteOfDay } }) fun _ => rfl)

theorem deaf_advance (more : Bool) : Deaf (State.advance more) :=
  .ite (c := fun s => nextAfter s.capacity s.cursor.nextIdx = s.seq.sstart) (fun _ => Iff.rfl)
    ((deaf_endScan more).comp
      (g := fun s => { s with cursor := { s.cursor with nextIdx := nextAfter s.capacity s.cursor.nextIdx } })
      fun _ => rfl)
    ((deaf_fetch more).comp
      (g := fun s => { s with cursor := { s.cursor with nextIdx := nextAfter s.capacity s.cursor.nextIdx } })
      fun _ => rfl)

theorem deaf_txDone (more : Bool) : Deaf (State.txDone more) :=
  (deaf_advance more).comp
    (g := fun s =>
      { s with tx := { s.tx with req := false }, seq := { s.seq with task := .dueScan more },
               env := { s.env with txs := s.env.txs ++ [⟨s.tx.major, s.tx.minor, s.tx.cmd⟩] } }) fun _ => rfl

theorem deaf_scanInvalid (more : Bool) : Deaf (State.scanInvalid more) :=
  .ite (c := fun s => s.cursor.nextIdx = 0) (fun _ => Iff.rfl) (deaf_endScan more) <|
    .ite (c := fun s => s.seq.sstart = 0) (fun _ => Iff.rfl)
      ((deaf_endScan more).comp (g := fun s => { s with cursor := { s.cursor with nextIdx := 0 } }) fun _ => rfl)
      ((deaf_fetch more).comp (g := fun s => { s with cursor := { s.cursor with nextIdx := 0 } }) fun _ => rfl)

theorem deaf_scanRecord (more : Bool) : Deaf (State.scanRecord more) :=
  .ite (c := fun s => s.recValid = true) (fun _ => Iff.rfl)
    (.ite (c := fun s => s.inWindow = true) (fun _ => Iff.rfl)
      (.ite (c := fun s => (s.fires && decide (s.seq.mode = .normal)) = true) (fun _ => Iff.rfl) (fun _ => rfl)
        (deaf_advance more))
      (deaf_endScan more))
    (deaf_scanInvalid more)

theorem deaf_finish (r : XferResult) : Deaf (finish r) := fun s => by
  simp only [finish, show s.forgetReads.seq.task = s.seq.task from rfl]
  cases s.seq.task with
  | idle | dueTx => rfl
  | transfer | getTime | loadCfg | wrRec => cases r <;> rfl
  | rdRec =>
    simp only [finishRdRec, forgetReads_recordResult]
    rcases recordResult r s with ⟨u, _ | _⟩ <;> rfl
  | cntValid =>
    simp only [finishCount, forgetReads_recordResult]
    rcases recordResult r s with ⟨u, _ | _⟩
    · exact Deaf.ite (c := fun u => u.recValid = true) (fun _ => Iff.rfl)
        (deaf_countNext.comp (g := fun u => { u with seq := { u.seq with cidx := u.seq.cidx + 1 } }) fun _ => rfl)
        (g := fun u => u.endCount u.seq.cidx) (fun _ => rfl) u
    · rfl
  | dueTime =>
    cases r with
    | failed => rfl
    | ok =>
      exact Deaf.ite (c := fun u => u.decodedTime.bad = true) (fun _ => Iff.rfl)
        (f := fun u => (u.latchTime.raise .badTime).completePass true) (fun _ => rfl)
        (deaf_windows.comp (g := State.latchTime) fun _ => rfl) s
  | dueScan more =>
    simp only [finishScan, forgetReads_recordResult]
    rcases recordResult r s with ⟨u, _ | _⟩
    · exact deaf_scanRecord more u
    · exact deaf_endScan more u

/-! ### Instants and runs -/

theorem deaf_takeStatus (p : Prim) (st d : Byte) : Deaf (takeStatus p st d) := fun s => by
  simp only [takeStatus, deaf_logPrim _ s, forgetReads_bteStatus]
  rcases bteStatus st d (s.logPrim ⟨p, some st, p.returns d⟩) with ⟨u, _ | r⟩
  · rfl
  · exact deaf_finish r u

theorem deaf_takeStop : Deaf takeStop := fun s => by
  simp only [takeStop, deaf_logPrim _ s, forgetReads_bteStop]
  exact deaf_finish _ _

@[simp] theorem mute_reset (i : Instant) : i.mute.reset = i.reset := by unfold Instant.mute; split <;> rfl
@[simp] theorem mute_tick (i : Instant) : i.mute.tick = i.tick := by unfold Instant.mute; split <;> rfl
@[simp] theorem mute_bus (i : Instant) : i.mute.bus = i.bus := by unfold Instant.mute; split <;> rfl
@[simp] theorem mute_txAck (i : Instant) : i.mute.txAck = i.txAck := by unfold Instant.mute; split <;> rfl

@[simp] theorem mute_mute (i : Instant) : i.mute.mute = i.mute := by
  rcases i with ⟨_, _ | _ | _, _, _, _⟩ <;> rfl

@[simp] theorem mute_cmdWrite? (i : Instant) : i.mute.cmdWrite? = i.cmdWrite? := by
  rcases i with ⟨_, _ | _ | _, _, _, _⟩ <;> rfl

theorem forgetReads_forgetReads (s : State) : s.forgetReads.forgetReads = s.forgetReads := by
  simp [State.forgetReads, Function.comp_def]

theorem forgetReads_seqStep (i : Instant) (s : State) : seqStep i.mute s.forgetReads = (seqStep i s).forgetReads := by
  simp only [seqStep, mute_txAck, mute_bus, forgetReads_request, show s.forgetReads.seq = s.seq from rfl]
  split
  · split
    · exact deaf_txDone _ s
    · rfl
  · split
    · exact deaf_enter _ s
    · exact deaf_takeStop s
    · split
      · exact deaf_takeStatus _ _ _ s
      · rfl

/-- A host port that ignores reads but for the record of them. -/
theorem forgetReads_onHost {f : HostAccess → State → State} (hread : ∀ a s, (f (.read a) s).forgetReads = s.forgetReads)
    (hwrite : ∀ a v, Deaf (f (.write a v))) (i : Instant) (s : State) :
    i.mute.onHost f s.forgetReads = (i.onHost f s).forgetReads := by
  rcases i with ⟨_, _ | _ | _, _, _, _⟩
  · rfl
  · exact (hread _ s).symm
  · exact hwrite _ _ s

theorem forgetReads_busyHost (i : Instant) (s : State) :
    i.mute.onHost State.busyHost s.forgetReads = (i.onHost State.busyHost s).forgetReads := by
  refine forgetReads_onHost (fun a u => ?_) (fun a v => ?_) i s
  · simp only [State.busyHost]
    split <;> rfl
  · exact .ite (c := fun _ => a = addrCtrl) (fun _ => Iff.rfl) (fun _ => rfl) fun _ => rfl

theorem deaf_writeReg (a : HostAddr) (v : Byte) : Deaf (State.writeReg a v) := fun s => by
  simp only [State.writeReg]
  split
  · rfl
  · split <;> rfl

theorem forgetReads_heard (i : Instant) (s : State) : s.forgetReads.heard i.mute = (s.heard i).forgetReads := by
  unfold State.heard
  rw [mute_tick]
  exact forgetReads_onHost (fun _ _ => rfl) deaf_writeReg i (s.latchTick i.tick)

theorem forgetReads_resetInstant (i : Instant) (s : State) :
    resetInstant i.mute s.forgetReads = (resetInstant i s).forgetReads := by
  rcases i with ⟨_, _ | _ | _, _, _, _⟩ <;> rfl

theorem forgetReads_busyInstant (i : Instant) (s : State) :
    busyInstant i.mute s.forgetReads = (busyInstant i s).forgetReads := by
  simp only [busyInstant, mute_reset, mute_tick]
  split
  · exact forgetReads_resetInstant i s
  · rw [forgetReads_busyHost, forgetReads_seqStep]
    rfl

theorem forgetReads_withInputs (l : List Instant) (s : State) :
    s.forgetReads.withInputs (l.map Instant.mute) = (s.withInputs l).forgetReads := rfl

theorem forgetReads_run (l : List Instant) (s : State) :
    run (l.map Instant.mute) s.forgetReads = (run l s).forgetReads := by
  induction l generalizing s with
  | nil =>
    have hq := forgetReads_busyInstant Instant.quiet (s.withInputs [])
    by_cases hb : s.busy = true
    · simp only [List.map_nil, run, show s.forgetReads.busy = s.busy from rfl, hb, if_true]
      exact hq
    · simp only [List.map_nil, run, show s.forgetReads.busy = s.busy from rfl, hb]
      rfl
  | cons i rest ih =>
    by_cases hb : s.busy = true
    · simp only [List.map_cons, run, show s.forgetReads.busy = s.busy from rfl, hb, if_true]
      rw [forgetReads_withInputs, forgetReads_busyInstant, ih]
    · simp only [List.map_cons, run, show s.forgetReads.busy = s.busy from rfl, hb]
      rfl

theorem deaf_runSeq : Deaf State.runSeq := fun s => forgetReads_run s.env.inputs s

/-! ### Commands and steps -/

theorem deaf_commandBody (i : Instr) : Deaf (commandBody i) := by
  cases i with
  | rdrec =>
    exact (deaf_readRecord (fun s => s.ops.idx) (fun _ => rfl) (deaf_complete true)).comp
      (g := State.begun .rdrec) fun _ => rfl
  | wrrec =>
    exact (deaf_writeRecord (fun s => s.ops.idx) (fun _ => rfl) (deaf_complete true)).comp
      (g := State.begun .wrrec) fun _ => rfl
  | cntvalid => exact deaf_countNext.comp (g := State.begun .cntvalid) fun _ => rfl
  | _ => exact fun _ => rfl

theorem deaf_byteBody (c : Byte) : Deaf (byteBody c) := fun s => by
  unfold byteBody
  split
  · exact deaf_commandBody _ s
  · rfl

theorem deaf_accept (c : Byte) : Deaf (accept c (byteBody c)) :=
  .ite (c := fun s => (s.busy || s.halt) = true) (fun _ => Iff.rfl) (fun _ => rfl)
    (deaf_runSeq.comp ((deaf_byteBody c).comp (g := State.commandStart c) fun _ => rfl))

theorem forgetReads_idleInstant (i : Instant) (s : State) :
    idleInstant i.mute s.forgetReads = (idleInstant i s).forgetReads := by
  rw [idleInstant_eq, idleInstant_eq, forgetReads_heard]
  exact Deaf.ite (c := fun u => u.tickReady = true) (fun _ => Iff.rfl)
    (deaf_runSeq.comp (g := fun u => u.tickStart.checkDue .normal) fun _ => rfl) (g := fun u => u) (fun _ => rfl)
    (s.heard i)

theorem forgetReads_instant (i : Instant) (s : State) :
    instant i.mute s.forgetReads = (instant i s).forgetReads := by
  simp only [instant, mute_reset, mute_tick, mute_cmdWrite?, show s.forgetReads.busy = s.busy from rfl]
  split
  · exact forgetReads_resetInstant i s
  · split
    · exact forgetReads_busyInstant i s
    · split
      · exact deaf_accept _ (s.latchTick i.tick)
      · exact forgetReads_idleInstant i s

theorem forgetReads_upcoming (s : State) : s.forgetReads.env.upcoming = s.env.upcoming.map Instant.mute := by
  cases hin : s.env.inputs <;> simp [Env.upcoming, State.forgetReads, hin]

/-- Settles O50: a step of the machine without host reads is the step of the machine, its host reads erased. -/
theorem hostReadsHaveNoEffect : Obligations.HostReadsHaveNoEffect := by
  intro s t u ht hu
  suffices he : u = t.forgetReads by rw [he, forgetReads_forgetReads]
  cases hup : s.env.upcoming with
  | nil =>
    have hup' : s.forgetReads.env.upcoming = [] := by rw [forgetReads_upcoming, hup]; rfl
    rw [step_nil hup] at ht
    rw [step_nil hup'] at hu
    rw [← Host.Outcome.next.inj ht, ← Host.Outcome.next.inj hu]
    exact forgetReads_instant Instant.quiet s
  | cons i rest =>
    have hup' : s.forgetReads.env.upcoming = i.mute :: rest.map Instant.mute := by rw [forgetReads_upcoming, hup]; rfl
    rw [step_upcoming hup] at ht
    rw [step_upcoming hup'] at hu
    rw [← Host.Outcome.next.inj ht, ← Host.Outcome.next.inj hu, forgetReads_withInputs]
    exact forgetReads_instant i _

end Sys2Proof.Machine
end

section
/-! Waits and handshakes: the runs that never end (R157, R312, R313), the transmit port (R47, R233 to R235). -/

namespace Sys2Proof.Machine

/-! ### Waiting for ever -/

theorem steps_succ {s t : State} (h : step s = .next t) (n : Nat) : steps (n + 1) s = steps n t := by
  rw [steps, h]

theorem waiting_withInputs {s : State} (h : Waiting s) (l : List Instant) : Waiting (s.withInputs l) := ⟨h.busy, h.wait⟩

theorem run_quiet {s : State} (h : Waiting s) (n : Nat) (rest : List Instant) :
    run (List.replicate n Instant.quiet ++ rest) s = run rest s := by
  induction n with
  | zero => rfl
  | succ n ih =>
    rw [List.replicate_succ, List.cons_append, run_cons h.busy, busyInstant_quiet (waiting_withInputs h _),
      run_withInputs, ih]

theorem step_quiet {s : State} (h : Waiting s) (rest : List Instant) :
    step (s.withInputs (Instant.quiet :: rest)) = .next (s.withInputs rest) := by
  rw [step_listed (i := Instant.quiet) (rest := rest) rfl, withInputs_withInputs,
    instant_busy (s := s.withInputs rest) rfl h.busy, busyInstant_quiet (waiting_withInputs h rest)]

theorem steps_silent {s : State} (h : Waiting s) (hin : s.env.inputs = []) (hcyc : s.env.cycle = []) (n : Nat) :
    steps n s = .next s := by
  have hup : s.env.upcoming = [] := by rw [Env.upcoming, hin, hcyc]
  have hstep : step s = .next s := by rw [step_nil hup, instant_busy rfl h.busy, busyInstant_quiet h]
  induction n with
  | zero => rfl
  | succ n ih => rw [steps_succ hstep, ih]

theorem expected_ne_arbLost (b : Bte) : ¬ 0x38#8 = b.expected := by
  unfold Bte.expected; split <;> decide

/-- A lost arbitration restarts the transaction in every state that waits for a status (R145) ... -/
theorem verdict_arbLost (cfg : Params) {b : Bte} (hl : b.pstate.live = true) : verdict cfg b stArbLost = .restart := by
  cases hp : b.pstate <;> simp only [hp, PState.live, Bool.false_eq_true] at hl <;>
    simp [verdict, isStart, hp, expected_ne_arbLost]

/-- ... and moves no byte, counts no refusal and takes no bus. -/
theorem observe_arbLost (d : Byte) {s : State} (hl : s.bte.pstate.live = true) :
    s.observe stArbLost d = { s with bte := { s.bte with bstat := stArbLost } } := by
  cases hp : s.bte.pstate <;> simp only [hp, PState.live, Bool.false_eq_true] at hl <;>
    simp [State.observe, isStart, hp, expected_ne_arbLost]

theorem takeStatus_arbLost {s : State} (hl : s.bte.pstate.live = true) (p : Prim) (d : Byte) :
    takeStatus p stArbLost d s =
      s.went ⟨p, some stArbLost, p.returns d⟩
        { s.bte with pstate := .start, bidx := 0, bstat := stArbLost } := by
  have hres : ∀ u : State, u.bte.pstate.live = true →
      bteStatus stArbLost d u = ((u.observe stArbLost d).restart, none) := fun u hu => by
    simp only [bteStatus, verdict_arbLost u.cfg hu]
  rw [takeStatus, hres (s.logPrim _) hl, observe_arbLost d (s := s.logPrim _) hl]
  rfl

/-- The state after `n + 1` lost arbitrations, the first one that of `p`. -/
def State.lost (s : State) (p : Prim) (d : Byte) (n : Nat) : State :=
  { s with
    bte := { s.bte with pstate := .start, bidx := 0, bstat := stArbLost }
    env := { s.env with prims :=
      s.env.prims ++ ⟨p, some stArbLost, p.returns d⟩ :: List.replicate n PrimEvent.lostStart } }

theorem step_arbLost {s : State} {p : Prim} {d : Byte} (h : Outstanding s p) (hin : s.env.inputs = [])
    (hcyc : s.env.cycle = [.answer stArbLost d]) : step s = .next (s.lost p d 0) := by
  have hup : s.env.upcoming = [.answer stArbLost d] := by rw [Env.upcoming, hin, hcyc]
  obtain ⟨hl, _⟩ := live_of_request h.request h.noStop
  have hself : s.withInputs [] = s := by rw [← hin, withInputs_self]
  rw [step_upcoming hup, hself, instant_busy rfl h.busy, busyInstant_answer h.request h.noStop h.task,
    takeStatus_arbLost hl]
  rfl

theorem steps_arbLost {s : State} {p : Prim} {d : Byte} (h : Outstanding s p) (hin : s.env.inputs = [])
    (hcyc : s.env.cycle = [.answer stArbLost d]) (n : Nat) : steps (n + 1) s = .next (s.lost p d n) := by
  induction n generalizing s p with
  | zero => rw [steps_succ (step_arbLost h hin hcyc)]; rfl
  | succ n ih =>
    rw [steps_succ (step_arbLost h hin hcyc), ih (s := s.lost p d 0) (p := .start) ⟨h.busy, h.task, rfl, nofun⟩ hin hcyc]
    simp only [State.lost, List.append_assoc]
    rfl

/-- Settles O55: a waiting block stands still, and a lost arbitration only restarts, by induction on the instants. -/
theorem waitsForEver : Obligations.WaitsForEver :=
  ⟨fun _ n rest h => ⟨run_quiet h n rest, step_quiet h rest, fun hin hcyc => steps_silent h hin hcyc n⟩,
    fun _ _ _ n h hin hcyc => ⟨_, steps_arbLost h hin hcyc n, h.busy, rfl⟩⟩

/-! ### The transmit port -/

/-- The minute of a record fits its 14 bits (R241). -/
theorem toNat_recMinute (s : State) : s.recMinute.toNat = (s.dbufGet 7).toNat * 60 + (s.dbufGet 8).toNat := by
  have h7 := (s.dbufGet 7).isLt
  have h8 := (s.dbufGet 8).isLt
  rw [State.recMinute, BitVec.toNat_add, BitVec.toNat_mul, BitVec.toNat_setWidth, BitVec.toNat_setWidth,
    BitVec.toNat_ofNat]
  omega

theorem inWindow_iff (s : State) :
    s.inWindow = true ↔ s.seq.wfrom.toNat ≤ (s.dbufGet 7).toNat * 60 + (s.dbufGet 8).toNat ∧
      (s.dbufGet 7).toNat * 60 + (s.dbufGet 8).toNat < s.seq.wto.toNat := by
  have hf := s.seq.wfrom.isLt
  have ht := s.seq.wto.isLt
  simp only [State.inWindow, Bool.and_eq_true, decide_eq_true_eq, BitVec.le_def, BitVec.lt_def, BitVec.toNat_setWidth,
    toNat_recMinute]
  omega

theorem fires_iff (s : State) :
    s.fires = true ↔ (s.dbufGet 6 = 0 ∨ s.dbufGet 6 = s.dt.wday) ∧
      ((s.dbufGet 3 = 0 ∧ s.dbufGet 4 = 0 ∧ s.dbufGet 5 = 0) ∨
        (s.dbufGet 3 = s.dt.day ∧ s.dbufGet 4 = s.dt.mon ∧ s.dbufGet 5 = s.dt.year)) := by
  simp [State.fires, State.wdayOk, State.dateOk, and_assoc]

/-- A due record in `DBUF` goes to the transmit port (R235). -/
theorem finishScan_transmit {s : State} {more : Bool} (hc : s.bte.count = 10) (hv : s.recValid = true)
    (hw : s.inWindow = true) (hf : s.fires = true) (hm : s.seq.mode = .normal) :
    finishScan more .ok s = s.transmit more := by
  rcases recordResult_cases .ok s with ⟨_, _, he⟩ | ⟨_, hne, _⟩ | ⟨hr, _⟩
  · simp [finishScan, he, State.scanRecord, hv, hw, hf, hm]
  · exact absurd hc hne
  · cases hr

theorem readRecord_port {out : State → State} (h : ∀ u, (out u).tx = u.tx ∧ (out u).env = u.env) (i : Half) (s : State) :
    (s.readRecord i out).tx = s.tx ∧ (s.readRecord i out).env = s.env := by
  unfold State.readRecord
  split
  · exact h _
  · exact ⟨rfl, rfl⟩

theorem endScan_port (more : Bool) (s : State) : (s.endScan more).tx = s.tx ∧ (s.endScan more).env = s.env := by
  cases more with
  | true => exact readRecord_port (out := State.endPass) (fun _ => ⟨rfl, rfl⟩) _ _
  | false => exact ⟨rfl, rfl⟩

/-- Going on to the next record drives no port (R236). -/
theorem advance_port (more : Bool) (s : State) : (s.advance more).tx = s.tx ∧ (s.advance more).env = s.env := by
  rcases advance_cases more s with ⟨_, he⟩ | ⟨_, he⟩ <;> rw [he]
  · exact endScan_port more _
  · exact readRecord_port (endScan_port more) _ _

/-- The end of a record's read in a scan, the record due: the port is driven. -/
theorem step_transmit {s : State} {more : Bool} {rest : List Instant} (hb : s.busy = true) (ht : s.seq.task = .dueScan more)
    (hp : s.bte.pstate = .stopOk) (hx : s.bte.xlen = 10) (hv : s.recValid = true) (hw : s.inWindow = true)
    (hf : s.fires = true) (hm : s.seq.mode = .normal) (hin : s.env.inputs = Instant.quiet :: rest) :
    step s = .next
      (State.transmit more
        { s with bte := { s.bte with count := s.bte.xlen, pstate := .idle }
                 env := { s.env with inputs := rest, prims := s.env.prims ++ [.stopped] } }) := by
  have hstop : busyInstant Instant.quiet (s.withInputs rest) = takeStop (s.withInputs rest) :=
    busyInstant_stop (by simp [State.request, hp]) (by simp [ht, Task.transmitting])
  rw [step_listed hin, instant_busy (s := s.withInputs rest) rfl hb, hstop]
  simp only [takeStop, bteStop, logPrim_bte, withInputs_bte, hp, finish, logPrim_seq, withInputs_seq, ht]
  exact congrArg _ (finishScan_transmit (s :=
    { (s.withInputs rest).logPrim .stopped with bte := { s.bte with count := s.bte.xlen, pstate := .idle } })
    hx hv hw hf hm)

/-- Settles O33: the end of a due record's read, and the acknowledgement. -/
theorem transmitHandshake : Obligations.TransmitHandshake := by
  refine ⟨fun s more rest hb ht hp hx hv hfrom hto hwday hdate hm hin => ?_, fun s more rest hb ht hin => ?_⟩
  · have hvalid : s.recValid = true := by simpa [State.recValid] using hv
    refine ⟨_, step_transmit hb ht hp hx hvalid ((inWindow_iff s).2 ⟨hfrom, hto⟩) ((fires_iff s).2 ⟨hwday, hdate⟩) hm hin,
      hb, rfl, rfl, rfl, rfl, rfl, rfl⟩
  · have hack : busyInstant .ack (s.withInputs rest) = (s.withInputs rest).txDone more := by
      rw [busyInstant_noReset rfl]
      simp only [Instant.ack, Instant.onHost, seqStep, withInputs_seq, ht, latchTick_false]
      rfl
    refine ⟨_, by rw [step_listed hin, instant_busy (s := s.withInputs rest) rfl hb, hack], ?_⟩
    obtain ⟨htx, henv⟩ := advance_port more
      { s.withInputs rest with
        tx := { s.tx with req := false }, seq := { s.seq with task := .dueScan more },
        env := { (s.withInputs rest).env with txs := s.env.txs ++ [⟨s.tx.major, s.tx.minor, s.tx.cmd⟩] } }
    exact ⟨htx, congrArg Env.txs henv, congrArg Env.inputs henv⟩

end Sys2Proof.Machine
end

section
/-! The bytes of a Read in `DBUF` (R30, R78): where consecutive writes land, and the commands of one transaction. -/

namespace Sys2Proof.Machine

/-! ### Bytes written from `DBUF[0]` on -/

theorem dbufGet_writeBytes (s : State) (ds : List Byte) (k : Byte) :
    ({ s with dbuf := Memory.writeBytes 0 ds s.dbuf } : State).dbufGet k =
      if h : k.toNat < ds.length then ds[k.toNat] else s.dbufGet k := by
  have hread : Memory.read? (Memory.writeBytes 0 ds s.dbuf) k.toNat =
      (ds[k.toNat]?).or (Memory.read? s.dbuf k.toNat) := by
    rw [Memory.read?_writeBytes, if_pos (Nat.zero_le _), Nat.sub_zero]
  unfold State.dbufGet
  rw [hread]
  split
  next h => simp [List.getElem?_eq_getElem h]
  next h => simp [List.getElem?_eq_none (Nat.le_of_not_lt h)]

/-! ### The commands of one transaction -/

theorem opAw_cases (s : State) : s.opAw = 1 ∨ s.opAw = 2 := by unfold State.opAw; split <;> simp

theorem memAw_cases (s : State) : s.memAw = 1 ∨ s.memAw = 2 := by unfold State.memAw; split <;> simp

theorem writeLen_eq (s : State) : s.writeLen = if s.dbufGet 0 = 0 then 1 else 10 := by
  simp [State.writeLen, State.recValid, Config.recSize]

/-- An accepted command of one transaction begins it. -/
theorem accepted_single {i : Instr} {s : State} {x : Xfer} (h : s.single? i = some x) :
    s.accepted i = ((s.commandStart (encodeByte i)).begun i).startXfer x.kind x.dev x.aw x.off x.len := by
  cases i with
  | nop | cntvalid | chkdueN | chkdueI => cases h
  | bread | bwrite | clkread | clkwrite | memread | memwrite | gettime | loadcfg => cases h; rfl
  | rdrec =>
    rw [State.single?, Option.ite_none_right_eq_some] at h
    obtain ⟨hlt, hx⟩ := h
    cases hx
    exact readRecord_inRange (s := (s.commandStart (encodeByte .rdrec)).begun .rdrec) hlt _
  | wrrec =>
    rw [State.single?, Option.ite_none_right_eq_some] at h
    obtain ⟨hlt, hx⟩ := h
    cases hx
    refine (writeRecord_inRange (s := (s.commandStart (encodeByte .wrrec)).begun .wrrec) hlt _).trans ?_
    rw [writeLen_eq]
    rfl

theorem single_aw {i : Instr} {s : State} {x : Xfer} (h : s.single? i = some x) : x.aw = 1 ∨ x.aw = 2 := by
  cases i with
  | nop | cntvalid | chkdueN | chkdueI => cases h
  | bread | bwrite => cases h; exact opAw_cases s
  | clkread | clkwrite | gettime | loadcfg => cases h; exact .inl rfl
  | memread | memwrite => cases h; exact memAw_cases s
  | rdrec | wrrec =>
    rw [State.single?, Option.ite_none_right_eq_some] at h
    obtain ⟨_, hx⟩ := h
    cases hx
    exact memAw_cases s

/-- The operations of one transaction; a record's has `n` = 10 bytes. -/
def Task.Single (t : Task) (n : Byte) : Prop :=
  t = .transfer ∨ t = .getTime ∨ t = .loadCfg ∨ t = .wrRec ∨ (t = .rdRec ∧ n = 10)

theorem begun_single {i : Instr} {s : State} {x : Xfer} (h : s.single? i = some x) (u : State) :
    (u.begun i).seq.task.Single x.len := by
  cases i with
  | nop | cntvalid | chkdueN | chkdueI => cases h
  | bread | bwrite | clkread | clkwrite | memread | memwrite => exact .inl rfl
  | gettime => exact .inr (.inl rfl)
  | loadcfg => exact .inr (.inr (.inl rfl))
  | wrrec => exact .inr (.inr (.inr (.inl rfl)))
  | rdrec =>
    rw [State.single?, Option.ite_none_right_eq_some] at h
    obtain ⟨_, hx⟩ := h
    cases hx
    exact .inr (.inr (.inr (.inr ⟨rfl, rfl⟩)))

theorem Task.Single.waits {t : Task} {n : Byte} (h : t.Single n) : t ≠ .idle ∧ t.transmitting = false := by
  rcases h with rfl | rfl | rfl | rfl | ⟨rfl, _⟩ <;> exact ⟨nofun, rfl⟩

/-- An operation of one transaction ends well when its transaction does (R165, R186, R187, R202, R203). -/
theorem finish_ok_single {s : State} (h : s.seq.task.Single s.bte.count) :
    (finish .ok s).busy = false ∧ (finish .ok s).fail = false := by
  rcases h with h | h | h | h | ⟨h, hcount⟩
  case inr.inr.inr.inr =>
    simp [finish, h, finishRdRec, recordResult, hcount, Config.recSize, State.complete]
  all_goals
    simp only [finish, h]
    exact ⟨rfl, rfl⟩

/-- The Read of an operation of one transaction, on a responsive bus: it ends well with the bytes received in `DBUF`. -/
theorem run_read_single {s : State} {dev : DevAddr} {aw : BitVec 2} {off : Half} {n : Byte} {st st2 : Byte} {ds : List Byte}
    (hb : s.busy = true) (ht : s.seq.task.Single n) (ha : aw = 1 ∨ aw = 2) (hs : isStart st = true)
    (hs2 : isStart st2 = true) (hl : ds.length = n.toNat) (rest : List Instant) :
    ∃ t, run (readTrace st st2 aw ds ++ rest) (s.memRead dev aw off n) = t ∧ t.busy = false ∧ t.fail = false ∧
      t.env.inputs = rest ∧ t.dbuf = Memory.writeBytes 0 ds s.dbuf ∧ t.env.resets = s.env.resets := by
  obtain ⟨hidle, htx⟩ := ht.waits
  refine ⟨_, run_memRead hb htx ha hs hs2 dev off n ds hl rest, ?_⟩
  generalize hu : ({ s with
    dbuf := Memory.writeBytes 0 ds s.dbuf
    bte := s.bte.done .rd dev aw off n 0
    env := { s.env with inputs := rest, prims := s.env.prims ++ readPrims st st2 dev aw off ds } } : State) = u
  have htask : u.seq.task = s.seq.task := by rw [← hu]
  obtain ⟨hbusy, hfail⟩ := finish_ok_single (s := u) (by rw [← hu]; exact ht)
  have hacts : Acts u (finish .ok u) := acts_finish .ok (htask ▸ hidle) (htask ▸ htx)
  rw [run_idle hbusy]
  refine ⟨hbusy, hfail, rfl, hacts.dbuf.trans ?_, hacts.frame.resets.trans ?_⟩ <;> rw [← hu]

/-- Settles O10: what a Read received stands in `DBUF`, and where consecutive writes land. -/
theorem readBytesLand : Obligations.ReadBytesLand := by
  refine ⟨fun s i x st st2 ds rest hr hs hs2 hx hk hd hin => ?_, fun s ds k _ => dbufGet_writeBytes s ds k⟩
  have hbusy : ((s.commandStart (encodeByte i)).begun i).busy = true := by cases i <;> rfl
  have hdbuf : ((s.commandStart (encodeByte i)).begun i).dbuf = s.dbuf := by cases i <;> rfl
  have hresets : ((s.commandStart (encodeByte i)).begun i).env.resets = s.env.resets := by cases i <;> rfl
  rw [Xfer.trace, hk] at hin
  obtain ⟨t, hrun, hb, hf, hrest, ht, htr⟩ :=
    run_read_single (dev := x.dev) (off := x.off) hbusy (begun_single hx _) (single_aw hx) hs hs2 hd.1 rest
  refine ⟨t, ?_, hb, hf, hrest, fun k => ?_⟩
  · rw [exec_ready hr, accepted_single hx, hk, hin]
    exact congrArg _ hrun
  · rw [← dbufGet_writeBytes]
    rw [hdbuf] at ht
    exact dbufGet_congr (s := { s with dbuf := Memory.writeBytes 0 ds s.dbuf }) ht (htr.trans hresets) k

end Sys2Proof.Machine
end

section
/-! The commands of one transaction on a responsive bus: the whole next state of a transfer command, GETTIME and LOADCFG
(R150, R162, R263). -/

namespace Sys2Proof.Machine

/-! ### The transaction -/

/-- The state in which an operation gets its result, its transaction `x` having moved the bytes `ds` in its first pass
(R150, R162). -/
def State.moved (s : State) (x : Xfer) (st st2 : Byte) (ds : List Byte) (rest : List Instant) : State :=
  { s with
    dbuf := x.dbuf ds s.dbuf
    bte := s.bte.done x.kind x.dev x.aw x.off x.len 0
    env := { s.env with inputs := rest, prims := s.env.prims ++ x.prims st st2 ds } }

/-- A Read or a Write answered by a responsive bus: what its operation finds. -/
theorem run_startXfer {s : State} {x : Xfer} {st st2 : Byte} {ds : List Byte} (hb : s.busy = true)
    (ht : s.seq.task.transmitting = false) (ha : x.aw = 1 ∨ x.aw = 2) (hs : isStart st = true)
    (hs2 : x.kind = .rd → isStart st2 = true) (hd : x.data s ds) (rest : List Instant) :
    run (x.trace st st2 ds ++ rest) (s.startXfer x.kind x.dev x.aw x.off x.len) =
      run rest (finish .ok (s.moved x st st2 ds rest)) := by
  obtain ⟨kind, dev, aw, off, len⟩ := x
  obtain ⟨hlen, hsent⟩ := hd
  cases kind with
  | rd => exact run_memRead hb ht ha hs (hs2 rfl) dev off len ds hlen rest
  | wr =>
    have htrace : Xfer.trace ⟨.wr, dev, aw, off, len⟩ st st2 ds = writeTrace st aw len.toNat := by
      rw [← hlen]; rfl
    obtain rfl := hsent rfl
    rw [htrace]
    exact run_memWrite hb ht ha hs dev off len rest

/-- A command of one transaction, up to the result of that transaction. -/
theorem exec_single {s : State} {i : Instr} {x : Xfer} {st st2 : Byte} {ds : List Byte} {rest : List Instant}
    (hr : Ready s) (hx : s.single? i = some x) (hs : isStart st = true) (hs2 : x.kind = .rd → isStart st2 = true)
    (hd : x.data s ds) (hin : s.env.inputs = x.trace st st2 ds ++ rest) :
    exec i s =
      .next (run rest (finish .ok (((s.commandStart (encodeByte i)).begun i).moved x st st2 ds rest))) := by
  have hbusy : ((s.commandStart (encodeByte i)).begun i).busy = true := by cases i <;> rfl
  have htake : ((s.commandStart (encodeByte i)).begun i).dbufTake = s.dbufTake := by cases i <;> rfl
  have hdata : x.data ((s.commandStart (encodeByte i)).begun i) ds := by rwa [Xfer.data, htake]
  rw [exec_ready hr, accepted_single hx, hin, run_startXfer hbusy (begun_single hx _).waits.2 (single_aw hx) hs hs2 hdata]

/-! ### Completion -/

/-- An operation that completes leaves `BUSY` and its place in the pseudocode as an idle block has them. -/
theorem Ready.ended_eq {s : State} (h : Ready s) (c : Byte) (b : Bte) (ps : List PrimEvent) (rest : List Instant) :
    s.ended c b ps rest =
      { s with cmd := c, src := false, fail := false, err := 0, bte := b, busy := false,
               seq := { s.seq with task := .idle },
               env := { s.env with inputs := rest, prims := s.env.prims ++ ps } } := by
  have hseq : { s.seq with task := .idle } = s.seq := by rw [← h.task]
  rw [State.ended, hseq, h.busy]

/-! ### The transfer commands -/

/-- A transfer command on a responsive bus (R165, R166, R181 to R184). -/
theorem exec_transfer {s : State} {i : Instr} {x : Xfer} {st st2 : Byte} {ds : List Byte} {rest : List Instant}
    (hr : Ready s) (hx : s.xfer? i = some x) (hs : isStart st = true) (hs2 : x.kind = .rd → isStart st2 = true)
    (hd : x.data s ds) (hin : s.env.inputs = x.trace st st2 ds ++ rest) :
    exec i s = .next
      { s.ended (encodeByte i) (s.bte.done x.kind x.dev x.aw x.off x.len 0) (x.prims st st2 ds) rest with
        dbuf := x.dbuf ds s.dbuf } := by
  have hsingle : s.single? i = some x := by
    cases i with
    | nop | gettime | loadcfg | rdrec | wrrec | cntvalid | chkdueN | chkdueI => cases hx
    | bread | bwrite | clkread | clkwrite | memread | memwrite => exact hx
  have hbegun : (s.commandStart (encodeByte i)).begun i =
      { s.commandStart (encodeByte i) with seq := { s.seq with task := .transfer } } := by
    cases i with
    | nop | gettime | loadcfg | rdrec | wrrec | cntvalid | chkdueN | chkdueI => cases hx
    | bread | bwrite | clkread | clkwrite | memread | memwrite => rfl
  rw [exec_single hr hsingle hs hs2 hd hin, hbegun, hr.ended_eq, run_idle (by rfl)]
  rfl

/-- Its case of a Read. -/
theorem exec_transfer_read {s : State} {i : Instr} {dev : DevAddr} {aw : BitVec 2} {off : Half} {n st st2 : Byte}
    {ds : List Byte} {rest : List Instant} (hr : Ready s) (hs : isStart st = true) (hs2 : isStart st2 = true)
    (hl : ds.length = n.toNat) (hx : s.xfer? i = some ⟨.rd, dev, aw, off, n⟩)
    (hin : s.env.inputs = readTrace st st2 aw ds ++ rest) :
    exec i s = .next
      { s.ended (encodeByte i) (s.bte.done .rd dev aw off n 0) (readPrims st st2 dev aw off ds) rest with
        dbuf := Memory.writeBytes 0 ds s.dbuf } :=
  exec_transfer hr hx hs (fun _ => hs2) ⟨hl, nofun⟩ hin

/-- Its case of a Write: the bytes sent are the first of `DBUF`. -/
theorem exec_transfer_write {s : State} {i : Instr} {dev : DevAddr} {aw : BitVec 2} {off : Half} {n st : Byte}
    {rest : List Instant} (hr : Ready s) (hs : isStart st = true) (hx : s.xfer? i = some ⟨.wr, dev, aw, off, n⟩)
    (hin : s.env.inputs = writeTrace st aw n.toNat ++ rest) :
    exec i s = .next
      (s.ended (encodeByte i) (s.bte.done .wr dev aw off n 0) (writePrims st dev aw off (s.dbufTake n.toNat)) rest) := by
  have hl : (s.dbufTake n.toNat).length = n.toNat := by simp [State.dbufTake]
  exact exec_transfer (st2 := stStart) hr hx hs nofun ⟨hl, fun _ => rfl⟩ (by rw [hin, Xfer.trace, hl])

/-- Settles O8: the three reads are transfer commands. -/
theorem readCommandsComplete : Obligations.ReadCommandsComplete := by
  intro s st st2 ds rest hr hs hs2 hl
  exact ⟨exec_transfer_read hr hs hs2 hl rfl, exec_transfer_read hr hs hs2 hl rfl, exec_transfer_read hr hs hs2 hl rfl⟩

/-- Settles O9: the three writes are transfer commands. -/
theorem writeCommandsComplete : Obligations.WriteCommandsComplete := by
  intro s st rest hr hs
  exact ⟨exec_transfer_write hr hs rfl, exec_transfer_write hr hs rfl, exec_transfer_write hr hs rfl⟩

/-! ### The records received -/

/-- A byte of `DBUF` that a Read has just received. -/
theorem dbufGet_received {s : State} {ds : List Byte} {m : Memory} (h : s.dbuf = Memory.writeBytes 0 ds m) {k : Byte}
    (hk : k.toNat < ds.length) : s.dbufGet k = recByte ds k.toNat := by
  rw [← dbufGet_congr (s := s) (t := { s with dbuf := Memory.writeBytes 0 ds m }) h.symm rfl k,
    dbufGet_writeBytes { s with dbuf := m } ds k, dif_pos hk, recByte, List.getD_eq_getElem _ _ hk]

/-- The time record received, decoded (R185). -/
theorem decodedTime_received {s : State} {bs : List Byte} {m : Memory} (h : s.dbuf = Memory.writeBytes 0 bs m)
    (hl : bs.length = 7) : s.decodedTime = specTime bs := by
  have hget : ∀ k : Byte, k.toNat < 7 → s.dbufGet k = recByte bs k.toNat := fun k hk =>
    dbufGet_received h (hl ▸ hk)
  simp only [State.decodedTime, specTime]
  rw [hget 0 (by decide), hget 1 (by decide), hget 2 (by decide), hget 3 (by decide), hget 4 (by decide),
    hget 5 (by decide), hget 6 (by decide)]
  rfl

/-- The hardware-info record received (R187). -/
theorem hwRecord_received {s : State} {b0 b1 b2 b3 b4 b5 b6 b7 : Byte} {m : Memory}
    (h : s.dbuf = Memory.writeBytes 0 [b0, b1, b2, b3, b4, b5, b6, b7] m) :
    s.hwRecord = { ver := b0, mtype := b1, memSize := b5 ++ b4 ++ b3 ++ b2, magic0 := b6, magic1 := b7 } := by
  have hget : ∀ k : Byte, k.toNat < 8 → s.dbufGet k = recByte [b0, b1, b2, b3, b4, b5, b6, b7] k.toNat := fun k hk =>
    dbufGet_received h hk
  simp only [State.hwRecord]
  rw [hget 0 (by decide), hget 1 (by decide), hget 2 (by decide), hget 3 (by decide), hget 4 (by decide),
    hget 5 (by decide), hget 6 (by decide), hget 7 (by decide)]
  rfl

/-! ### GETTIME and LOADCFG -/

/-- Settles O21: the transaction of GETTIME, then the time record latched. -/
theorem getTimeCompletes : Obligations.GetTimeCompletes := by
  intro s st st2 bs rest hr hs hs2 hl hin
  rw [exec_single (i := .gettime) hr rfl hs (fun _ => hs2) ⟨hl, nofun⟩ hin]
  generalize hu : ((s.commandStart (encodeByte .gettime)).begun .gettime).moved _ st st2 bs rest = u
  have htask : u.seq.task = .getTime := by rw [← hu]; rfl
  have hdt : u.decodedTime = specTime bs := decodedTime_received (m := s.dbuf) (by rw [← hu]; rfl) hl
  have hfinish : finish .ok u = State.complete false { u with dt := specTime bs } := by
    rw [← hdt, finish, htask]; rfl
  rw [hfinish, run_idle (by rfl), hr.ended_eq, ← hu]
  rfl

theorem toNat_append_byte {w : Nat} (x : BitVec w) (b : Byte) : (x ++ b).toNat = 256 * x.toNat + b.toNat := by
  rw [BitVec.toNat_append, ← Nat.shiftLeft_add_eq_or_of_lt b.isLt, Nat.shiftLeft_eq, Nat.mul_comm]

/-- The memory size is little-endian (R85, R79). -/
theorem toNat_memSize (b2 b3 b4 b5 : Byte) :
    (b5 ++ b4 ++ b3 ++ b2 : BitVec 32).toNat = b2.toNat + 256 * b3.toNat + 65536 * b4.toNat + 16777216 * b5.toNat := by
  rw [toNat_append_byte, toNat_append_byte, toNat_append_byte]
  omega

/-- `CAPACITY` as LOADCFG computes it, the bound given by the address bytes of the memory (R188). -/
theorem toNat_capacityOf (s : State) (m : BitVec 32) :
    (capacityOf s.cfg.memAw2 m).toNat = min m.toNat (2 ^ (8 * s.memAw.toNat)) / 10 := by
  have hbound : (if s.cfg.memAw2 = true then 65536 else 256) = 2 ^ (8 * s.memAw.toNat) := by
    unfold State.memAw; split <;> rfl
  have hle : 2 ^ (8 * s.memAw.toNat) ≤ 65536 := by rw [← hbound]; split <;> decide
  rw [capacityOf, hbound, BitVec.toNat_ofNat]
  omega

/-- Settles O22: the transaction of LOADCFG, then the record latched and the capacity computed from it. -/
theorem loadCfgCompletes : Obligations.LoadCfgCompletes := by
  intro s st st2 b0 b1 b2 b3 b4 b5 b6 b7 rest hr hs hs2 hin
  refine ⟨capacityOf s.cfg.memAw2 (b5 ++ b4 ++ b3 ++ b2), b5 ++ b4 ++ b3 ++ b2, toNat_memSize b2 b3 b4 b5,
    toNat_capacityOf s _, ?_⟩
  rw [exec_single (i := .loadcfg) hr rfl hs (fun _ => hs2) ⟨rfl, nofun⟩ hin]
  generalize hu : ((s.commandStart (encodeByte .loadcfg)).begun .loadcfg).moved _ st st2 _ rest = u
  have htask : u.seq.task = .loadCfg := by rw [← hu]; rfl
  have hhw := hwRecord_received (s := u) (m := s.dbuf) (by rw [← hu]; rfl)
  have hfinish : finish .ok u = State.complete false
      { u with hw := u.hwRecord, capacity := capacityOf u.cfg.memAw2 u.hwRecord.memSize, cfgok := true } := by
    rw [finish, htask]; rfl
  rw [hfinish, run_idle (by rfl), hr.ended_eq, hhw, ← hu]
  rfl

end Sys2Proof.Machine
end

section
/-! Decoding and encoding: the inverse laws, and the bytes that are no command (spec/30_encoding.md R100, R101, R106). -/

namespace Sys2Proof.Machine

theorem decode_encode (i : Instr) (rest : List Byte) : decode (encode i ++ rest) = .ok (i, rest) := by
  simp [encode, decode, decodeByte_encodeByte]

/-- Settles O1: each of the words is the byte of its command. -/
theorem decodesWords : Obligations.DecodesWords :=
  ⟨decode_encode .nop [], decode_encode .bwrite [], decode_encode .gettime [], decode_encode .cntvalid [],
    decode_encode .chkdueI []⟩

/-- Settles O2: every row of the table compares all eight bits with the byte of its command. -/
theorem decodeEncodeInverse : Obligations.DecodeEncodeInverse :=
  ⟨fun i rest _ => decode_encode i rest, fun _ _ => encodeByte_of_decodeByte⟩

/-! ### ILLEGAL -/

/-- The only rejection of a byte is the one that names it. -/
theorem decodeByte_cases (c : Byte) :
    (∃ i, decodeByte c = .ok i) ∨ decodeByte c = .error (.illegalCommand c) := by
  unfold decodeByte
  split
  · exact .inl ⟨_, rfl⟩
  · exact .inr rfl

/-- A byte is ILLEGAL where no command encodes to it. -/
theorem decodeByte_illegal_iff (c : Byte) :
    decodeByte c = .error (.illegalCommand c) ↔ ∀ i, encodeByte i ≠ c := by
  constructor
  · rintro h i rfl
    rw [decodeByte_encodeByte] at h
    cases h
  · intro h
    rcases decodeByte_cases c with ⟨i, hi⟩ | he
    · exact absurd (encodeByte_of_decodeByte hi) (h i)
    · exact he

/-- The bytes of the fourteen commands, as ranges: one for each group (R101). -/
theorem exists_encodeByte_iff (c : Byte) :
    (∃ i, encodeByte i = c) ↔
      c = 0x00 ∨ (0x10 ≤ c ∧ c ≤ 0x11) ∨ (0x20 ≤ c ∧ c ≤ 0x25) ∨ (0x30 ≤ c ∧ c ≤ 0x32) ∨ (0x40 ≤ c ∧ c ≤ 0x41) := by
  constructor
  · rintro ⟨i, rfl⟩
    cases i <;> decide
  · intro h
    have hc : c = 0x00 ∨ c = 0x10 ∨ c = 0x11 ∨ c = 0x20 ∨ c = 0x21 ∨ c = 0x22 ∨ c = 0x23 ∨ c = 0x24 ∨ c = 0x25 ∨
        c = 0x30 ∨ c = 0x31 ∨ c = 0x32 ∨ c = 0x40 ∨ c = 0x41 := by bv_omega
    rcases hc with rfl | rfl | rfl | rfl | rfl | rfl | rfl | rfl | rfl | rfl | rfl | rfl | rfl | rfl
    exacts [⟨.nop, rfl⟩, ⟨.bread, rfl⟩, ⟨.bwrite, rfl⟩, ⟨.clkread, rfl⟩, ⟨.clkwrite, rfl⟩, ⟨.memread, rfl⟩,
      ⟨.memwrite, rfl⟩, ⟨.gettime, rfl⟩, ⟨.loadcfg, rfl⟩, ⟨.rdrec, rfl⟩, ⟨.wrrec, rfl⟩, ⟨.cntvalid, rfl⟩,
      ⟨.chkdueN, rfl⟩, ⟨.chkdueI, rfl⟩]

/-- All 256 bytes but the fourteen of R101, decoded one by one. -/
theorem length_illegalBytes :
    (((List.range 256).map (BitVec.ofNat 8)).filter (fun c => decodeByte c == .error (.illegalCommand c))).length = 242 := by
  decide +kernel

/-- An ILLEGAL byte accepted by an idle block: ILLEGAL starts and is over at once (R106, R261). -/
theorem step_illegal {s : State} {c : Byte} {rest : List Instant} (h : Ready s)
    (hd : decodeByte c = .error (.illegalCommand c))
    (hin : s.env.inputs = { host := some (.write addrCmd c) } :: rest) :
    step s = .next { s with cmd := c, src := false, fail := true, err := 8, env := { s.env with inputs := rest } } := by
  obtain ⟨hbusy, hhalt, hpstate, htask⟩ := h
  have hbody : byteBody c = fun s => (s.raise .illCmd).complete true := by funext u; simp [byteBody, hd]
  have hbte : { s.bte with pstate := .idle } = s.bte := by rw [← hpstate]
  have hseq : { s.seq with task := .idle } = s.seq := by rw [← htask]
  rw [step_listed hin, instant_command (s := s.withInputs rest) (c := c) rfl hbusy rfl, latchTick_false,
    accept_ready (s := s.withInputs rest) hbusy hhalt, hbody, runSeq_idle (by rfl)]
  simp [State.complete, State.raise, State.commandStart, State.withInputs, FailCode.code, hbte, hseq, hbusy]

/-- Settles O3: the ILLEGAL bytes are those between the groups' commands. -/
theorem illegalBytes : Obligations.IllegalBytes := by
  refine ⟨fun c => ?_, length_illegalBytes, fun s c rest => step_illegal⟩
  rw [decodeByte_illegal_iff, ← not_exists, exists_encodeByte_iff]
  bv_omega

end Sys2Proof.Machine
end

section
/-! The operations of one transaction over every trace: the transfer commands, GETTIME, LOADCFG, RDREC and WRREC. When
the transaction is over so is the operation, so that the bytes it moves are those of one transaction. -/

namespace Sys2Proof.Machine

/-! ### One step -/

/-- When its transaction is over, an operation of one transaction completes (R165, R166, R186, R187, R202, R203). -/
theorem finish_single {n : Byte} {s : State} (h : s.seq.task.Single n) (r : XferResult) : (finish r s).busy = false := by
  rcases h with h | h | h | h | ⟨h, _⟩ <;> simp only [finish, h]
  case inr.inr.inr.inr =>
    rcases recordResult_cases r s with ⟨_, _, he⟩ | ⟨_, _, he⟩ | ⟨_, he⟩ <;> rw [finishRdRec, he] <;> rfl
  all_goals cases r <;> rfl

/-- A step of the sequencer under an operation of one transaction: the engine takes a primitive, and where that ends the
transaction, the operation completes. -/
theorem seqStep_single {n : Byte} (i : Instant) {s : State} (ht : s.seq.task.Single n) :
    ∃ u, EngineStep s u ∧ (seqStep i s = u ∨ (Acts u (seqStep i s) ∧ (seqStep i s).busy = false)) := by
  have hover : ∀ (r : XferResult) (u : State), u.seq = s.seq → Acts u (finish r u) ∧ (finish r u).busy = false :=
    fun r u hu => ⟨acts_finish r (hu ▸ ht.waits.1) (hu ▸ ht.waits.2), finish_single (hu ▸ ht) r⟩
  rcases seqStep_cases i s with he | ⟨more, hx, _⟩ | ⟨hr, he⟩ | ⟨_, he⟩ | ⟨p, st, d, hr, hp, _, he⟩
  · exact ⟨s, .refl s, .inl he⟩
  · have hno := ht.waits.2
    rw [hx] at hno
    cases hno
  · exact ⟨_, engineStep_enter hr, .inl he⟩
  · have hstop := engineStep_bteStop (s.logPrim ⟨.stop, none, none⟩)
    rw [he]
    exact ⟨_, hstop.of_logPrim, .inr (hover _ _ hstop.seq)⟩
  · obtain ⟨hl, hd⟩ := live_of_request hr hp
    have hst := engineStep_bteStatus st d (s := s.logPrim ⟨p, some st, p.returns d⟩) hl hd
    refine ⟨_, hst.of_logPrim, ?_⟩
    rw [he]
    cases hres : (bteStatus st d (s.logPrim ⟨p, some st, p.returns d⟩)).2 with
    | none => exact .inl (takeStatus_none hres)
    | some r => rw [takeStatus_some hres]; exact .inr (hover _ _ hst.seq)

/-! ### `DBUF` over the whole run -/

/-- `t` comes up in the run of one transaction of `n` bytes that began in `s`: what stands in `DBUF`. -/
structure SingleRun (n : Byte) (s t : State) : Prop where
  task : t.busy = true → t.seq.task.Single n
  within : t.busy = true → Within n t
  beyond : ∀ k, n ≤ k → t.dbufGet k = s.dbufGet k
  /-- A Write receives nothing. -/
  write : s.bte.Writing → t.dbuf = s.dbuf ∧ (t.busy = true → t.bte.Writing)

theorem SingleRun.start {s : State} {x : Xfer} (ht : s.seq.task.Single x.len) :
    SingleRun x.len (s.startXfer x.kind x.dev x.aw x.off x.len) (s.startXfer x.kind x.dev x.aw x.off x.len) :=
  ⟨fun _ => ht, fun _ => within_of_start rfl rfl (BitVec.le_refl _), fun _ _ => rfl, fun hw => ⟨rfl, fun _ => hw⟩⟩

theorem SingleRun.congr {n : Byte} {s t u : State} (h : SingleRun n s t) (hbusy : u.busy = t.busy) (hseq : u.seq = t.seq)
    (hbte : u.bte = t.bte) (hdbuf : u.dbuf = t.dbuf) (hresets : u.env.resets = t.env.resets) : SingleRun n s u where
  task := fun hb => hseq ▸ h.task (hbusy ▸ hb)
  within := fun hb => ⟨hbte ▸ (h.within (hbusy ▸ hb)).fits, hbte ▸ (h.within (hbusy ▸ hb)).len⟩
  beyond := fun k hk => (dbufGet_congr hdbuf hresets k).trans (h.beyond k hk)
  write := fun hw => ⟨hdbuf.trans (h.write hw).1, fun hb => hbte ▸ (h.write hw).2 (hbusy ▸ hb)⟩

theorem SingleRun.engineStep {n : Byte} {s t u : State} (h : SingleRun n s t) (hb : t.busy = true)
    (he : EngineStep t u) : SingleRun n s u where
  task := fun _ => he.seq ▸ h.task hb
  within := fun _ => he.within (h.within hb)
  beyond := fun k hk => (he.dbufGet (h.within hb) hk).trans (h.beyond k hk)
  write := fun hw => by
    obtain ⟨hdbuf, hwriting⟩ := h.write hw
    refine ⟨?_, fun _ => he.writing (hwriting hb)⟩
    rcases he.dbuf with hd | ⟨hps, _⟩
    · exact hd.trans hdbuf
    · exact absurd hps (hwriting hb).noRead.2.2

theorem SingleRun.completed {n : Byte} {s t u : State} (h : SingleRun n s t) (ha : Acts t u) (hb : u.busy = false) :
    SingleRun n s u where
  task := by simp [hb]
  within := by simp [hb]
  beyond := fun k hk => (dbufGet_congr ha.dbuf ha.frame.resets k).trans (h.beyond k hk)
  write := fun hw => ⟨ha.dbuf.trans (h.write hw).1, by simp [hb]⟩

theorem busyInstant_singleRun {n : Byte} {i : Instant} (hr : i.reset = false) {s t : State} (hb : t.busy = true)
    (h : SingleRun n s t) : SingleRun n s (busyInstant i t) := by
  obtain ⟨hseq, hbte, hdbuf, hbusy, _⟩ := onHost_busyHost_seq i t
  have hheard := h.congr hbusy hseq hbte hdbuf (onHost_busyHost_frame .idle i t).resets
  obtain ⟨u, he, hu⟩ := seqStep_single i (hheard.task (hbusy.trans hb))
  have hengine := hheard.engineStep (hbusy.trans hb) he
  rw [busyInstant_noReset hr]
  refine SingleRun.congr (t := seqStep i (i.onHost State.busyHost t)) ?_ rfl rfl rfl rfl rfl
  rcases hu with hu | ⟨ha, hover⟩
  · rw [hu]; exact hengine
  · exact hengine.completed ha hover

theorem run_singleRun {n : Byte} {l : List Instant} (hl : ∀ i ∈ l, i.reset = false) {s : State} (h : SingleRun n s s) :
    SingleRun n s (run l s) :=
  run_invariant (P := SingleRun n s) (Q := fun i => i.reset = false) rfl (fun _ _ h => h.congr rfl rfl rfl rfl rfl)
    (fun _ _ hr hb h => busyInstant_singleRun hr hb h) l hl s h

/-- A command of one transaction writes no byte of `DBUF` from the transaction's length on, and none at all for a Write. -/
theorem exec_single_dbuf {s t : State} {i : Instr} {x : Xfer} (hr : Ready s) (hn : NoReset s)
    (hx : s.single? i = some x) (he : exec i s = .next t) :
    (x.kind = .wr → t.dbuf = s.dbuf) ∧ ∀ k : Byte, x.len ≤ k → t.dbufGet k = s.dbufGet k := by
  have hdbuf : (s.accepted i).dbuf = s.dbuf := (acts_commandBody i _).dbuf.trans (by cases i <;> rfl)
  have hresets : (s.accepted i).env.resets = s.env.resets :=
    (acts_commandBody i _).frame.resets.trans (by cases i <;> rfl)
  rw [exec_ready hr] at he
  obtain rfl := Host.Outcome.next.inj he
  have hrun : SingleRun x.len (s.accepted i) (run s.env.inputs (s.accepted i)) := by
    rw [accepted_single hx]
    exact run_singleRun hn (.start (begun_single hx _))
  refine ⟨fun hk => ?_, fun k hk => (hrun.beyond k hk).trans (dbufGet_congr hdbuf hresets k)⟩
  have hwriting : (s.accepted i).bte.Writing := by
    rw [accepted_single hx]
    exact ⟨hk, nofun, nofun, nofun⟩
  exact (hrun.write hwriting).1.trans hdbuf

/-! ### The frames -/

/-- What a transfer command is: an operation of one transaction, of `LEN` bytes. -/
theorem xfer_single {s : State} {i : Instr} {x : Xfer} (h : s.xfer? i = some x) :
    s.single? i = some x ∧ opOf i = .transfer ∧ x.len = s.ops.len ∧
      ∀ u : State, u.begun i = { u with seq := { u.seq with task := .transfer } } := by
  cases i with
  | nop | gettime | loadcfg | rdrec | wrrec | cntvalid | chkdueN | chkdueI => cases h
  | bread | bwrite | clkread | clkwrite | memread | memwrite => cases h; exact ⟨rfl, rfl, rfl, fun _ => rfl⟩

/-- The latches of an operation that neither counts nor scans. -/
theorem Frame.seq_eq {o : Task} {s t : State} (h : Frame o s t) (hc : o ≠ .cntValid) (hd : o ≠ .dueTime) :
    t.seq = { s.seq with task := t.seq.task } := by
  obtain ⟨_, _, _, hseq⟩ := h.scan hd
  rw [(h.count hc).2] at hseq
  exact hseq

/-- Settles O43: the frame of the transfer commands' operation, and the bytes of its one transaction. -/
theorem transferFrame : Obligations.TransferFrame := by
  intro s t i x hr hn hx he
  obtain ⟨hsingle, hop, hlen, hbegun⟩ := xfer_single hx
  obtain ⟨hdbuf, hget⟩ := exec_single_dbuf hr hn hsingle he
  have hf := exec_frame hr hn he
  rw [hop, hbegun] at hf
  rw [hlen] at hget
  obtain ⟨hcap, hcfgok, hhw⟩ := hf.config nofun
  obtain ⟨hcursor, htx, htxs, _⟩ := hf.scan nofun
  exact ⟨hf.cfg, hf.cmd, hf.src, hf.ops, (hf.count nofun).1, hcap, hcursor, hf.time nofun nofun, hhw, hcfgok, htx,
    hf.seq_eq nofun nofun, htxs, hf.resets, hdbuf, hget⟩

/-- Settles O44: the frames of the two operations, and the seven and eight bytes of their transactions. -/
theorem profileFrame : Obligations.ProfileFrame := by
  intro s t i hr hn hi he
  have hf := exec_frame hr hn he
  rcases hi with rfl | rfl
  · obtain ⟨_, hget⟩ := exec_single_dbuf (i := .gettime) hr hn rfl he
    obtain ⟨hcap, hcfgok, hhw⟩ := hf.config nofun
    obtain ⟨hcursor, htx, htxs, _⟩ := hf.scan nofun
    exact ⟨hf.cfg, hf.cmd, hf.src, hf.ops, (hf.count nofun).1, htx, hf.seq_eq nofun nofun, htxs, hf.resets,
      fun _ => ⟨hcap, hcursor, hhw, hcfgok, hget⟩, nofun⟩
  · obtain ⟨_, hget⟩ := exec_single_dbuf (i := .loadcfg) hr hn rfl he
    obtain ⟨_, htx, htxs, _⟩ := hf.scan nofun
    exact ⟨hf.cfg, hf.cmd, hf.src, hf.ops, (hf.count nofun).1, htx, hf.seq_eq nofun nofun, htxs, hf.resets,
      nofun, fun _ => ⟨hf.time nofun nofun, hget⟩⟩

end Sys2Proof.Machine
end

section
/-! The result triple of the transfer commands (R115): what the engine holds while their transaction runs decides `FAIL`,
`COUNT` and `ERR` at its end. -/

namespace Sys2Proof.Machine

/-! ### One status, one STOP -/

/-- The codes of a failing transaction (R131, R271). -/
def FailCode.BusFailure (c : FailCode) : Prop := 1 ≤ c.code ∧ c.code ≤ 4

theorem busFailure_notStart : FailCode.notStart.BusFailure := ⟨by decide, by decide⟩

theorem verdict_abort_busFailure {cfg : Params} {b : Bte} {st : Byte} {c : FailCode} (h : verdict cfg b st = .abort c) :
    c.BusFailure := by
  rcases verdict_abort_code h with rfl | rfl | rfl <;> exact ⟨by decide, by decide⟩

/-- The engine under way: a transaction about to fail remembers one of its codes (R132). -/
structure Bte.Running (b : Bte) : Prop where
  pstate : b.pstate ≠ .idle
  code : b.pstate = .stopFail → b.xcode.BusFailure

theorem Bte.Running.of_live {b : Bte} (h : b.pstate.live = true) : b.Running := by
  constructor
  case pstate => intro hp; rw [hp] at h; cases h
  case code => intro hp; rw [hp] at h; cases h

theorem enter_running {p : PState} {s : State} (h : p.live = true) : (s.enter p).bte.Running := by
  rcases enter_pstate p s with ⟨_, _, he⟩ | ⟨_, he⟩ <;> rw [he]
  · exact ⟨nofun, nofun⟩
  · exact .of_live h

/-- A status keeps the engine under way and `ERR` as it was, or the transaction ends without STOP as `E_NOT_START`
(R132, R136). -/
theorem bteStatus_result (st d : Byte) {s : State} (hl : s.bte.pstate.live = true) :
    ((bteStatus st d s).2 = none ∧ (bteStatus st d s).1.err = s.err ∧ (bteStatus st d s).1.bte.Running) ∨
    ((bteStatus st d s).2 = some .failed ∧ (bteStatus st d s).1.err = 1 ∧ (bteStatus st d s).1.bte.count = 0) := by
  have herr : (s.observe st d).err = s.err := by rw [observe_frame]
  unfold bteStatus
  split
  · next p hv =>
    refine .inl ⟨rfl, ?_, enter_running (verdict_cont_live hl hv).1⟩
    dsimp only
    rw [enter_frame]
    exact herr
  · exact .inl ⟨rfl, herr, nofun, nofun⟩
  · next c hv => exact .inl ⟨rfl, herr, nofun, fun _ => verdict_abort_busFailure hv⟩
  · split
    · exact .inl ⟨rfl, herr, nofun, fun _ => busFailure_notStart⟩
    · exact .inr ⟨rfl, rfl, rfl⟩

/-- The STOP is requested by the two states that end a transaction (R150, R151). -/
theorem pstate_of_request_stop {s : State} (h : s.request = some .stop) :
    s.bte.pstate = .stopOk ∨ s.bte.pstate = .stopFail := by
  cases hp : s.bte.pstate with
  | stopOk => exact .inl rfl
  | stopFail => exact .inr rfl
  | rdata | wdata =>
    simp only [State.request, hp] at h
    split_ifs at h <;> cases h
  | _ => simp [State.request, hp] at h

/-! ### The whole run -/

/-- The two triples of R115 for a transaction of `n` bytes. -/
def State.HasResult (t : State) (n : Byte) : Prop :=
  (t.fail = false ∧ t.bte.count = n ∧ t.err = 0) ∨ (t.fail = true ∧ t.bte.count = 0 ∧ 1 ≤ t.err ∧ t.err ≤ 4)

/-- A transfer command's transaction of `n` bytes is under way. -/
structure Transferring (n : Byte) (t : State) : Prop where
  task : t.seq.task = .transfer
  err : t.err = 0
  len : t.bte.xlen = n
  engine : t.bte.Running

theorem Transferring.congr {n : Byte} {s u : State} (h : Transferring n s) (hseq : u.seq = s.seq) (hbte : u.bte = s.bte)
    (herr : u.err = s.err) : Transferring n u :=
  ⟨hseq ▸ h.task, herr.trans h.err, hbte ▸ h.len, hbte ▸ h.engine⟩

theorem Transferring.of_engineStep {n : Byte} {s u : State} (h : Transferring n s) (he : EngineStep s u)
    (herr : u.err = s.err) (hrun : u.bte.Running) : Transferring n u :=
  ⟨he.seq ▸ h.task, herr.trans h.err, he.xlen.trans h.len, hrun⟩

/-- The transaction is under way, or the command is over with one of the triples. -/
structure TransferRun (n : Byte) (t : State) : Prop where
  active : t.busy = true → Transferring n t
  result : t.busy = false → t.HasResult n

theorem TransferRun.of_active {n : Byte} {t : State} (hb : t.busy = true) (h : Transferring n t) : TransferRun n t :=
  ⟨fun _ => h, fun hb' => by rw [hb] at hb'; cases hb'⟩

theorem finish_transfer {s : State} (h : s.seq.task = .transfer) (r : XferResult) :
    finish r s = s.complete (r == .failed) := by
  cases r <;> simp only [finish, h] <;> rfl

/-- A transaction that succeeds leaves its length, one that fails leaves 0 and its code (R150, R151). -/
theorem transferRun_takeStop {n : Byte} {s : State} (h : Transferring n s) (hr : s.request = some .stop) :
    TransferRun n (takeStop s) := by
  have he := engineStep_bteStop (s.logPrim ⟨.stop, none, none⟩)
  rw [takeStop, finish_transfer (by rw [he.seq]; exact h.task)]
  refine ⟨nofun, fun _ => ?_⟩
  rcases bteStop_cases (s.logPrim ⟨.stop, none, none⟩) with ⟨_, hs⟩ | ⟨hps, hs⟩ <;> rw [hs]
  · exact .inl ⟨rfl, h.len, h.err⟩
  · exact .inr ⟨rfl, rfl, h.engine.code ((pstate_of_request_stop hr).resolve_left hps)⟩

theorem transferRun_takeStatus {n : Byte} {s : State} (hb : s.busy = true) (h : Transferring n s) {p : Prim}
    (hr : s.request = some p) (hp : p ≠ .stop) (st d : Byte) : TransferRun n (takeStatus p st d s) := by
  obtain ⟨hl, hd⟩ := live_of_request hr hp
  have he := engineStep_bteStatus st d (s := s.logPrim ⟨p, some st, p.returns d⟩) hl hd
  rcases bteStatus_result st d (s := s.logPrim ⟨p, some st, p.returns d⟩) hl with ⟨hn, herr, hrun⟩ | ⟨hs, herr, hcount⟩
  · rw [takeStatus_none hn]
    exact .of_active (he.busy.trans hb) (h.of_engineStep he.of_logPrim herr hrun)
  · rw [takeStatus_some hs, finish_transfer (by rw [he.seq]; exact h.task)]
    exact ⟨nofun, fun _ => .inr ⟨rfl, hcount, by rw [complete_err, herr]; decide, by rw [complete_err, herr]; decide⟩⟩

theorem transferRun_enter {n : Byte} {s : State} (hb : s.busy = true) (h : Transferring n s) :
    TransferRun n (s.enter s.bte.pstate) := by
  rcases enter_pstate s.bte.pstate s with ⟨_, _, he⟩ | ⟨_, he⟩ <;> rw [he]
  · exact .of_active hb ⟨h.task, h.err, h.len, nofun, nofun⟩
  · exact .of_active hb h

theorem transferRun_seqStep {n : Byte} (i : Instant) {s : State} (hb : s.busy = true) (h : Transferring n s) :
    TransferRun n (seqStep i s) := by
  rcases seqStep_cases i s with he | ⟨more, hx, _⟩ | ⟨_, he⟩ | ⟨hr, he⟩ | ⟨p, st, d, hr, hp, _, he⟩
  case inr.inl => rw [h.task] at hx; cases hx
  all_goals rw [he]
  · exact .of_active hb h
  · exact transferRun_enter hb h
  · exact transferRun_takeStop h hr
  · exact transferRun_takeStatus hb h hr hp st d

theorem onHost_busyHost_err (i : Instant) (s : State) : (i.onHost State.busyHost s).err = s.err := by
  unfold Instant.onHost
  split
  · next h _ =>
    rcases busyHost_cases h s with ⟨a, v, he⟩ | ⟨a, he⟩ | ⟨v, he⟩ | he <;> rw [he] <;> rfl
  · rfl

theorem transferRun_busyInstant {n : Byte} {i : Instant} (hr : i.reset = false) {s : State} (hb : s.busy = true)
    (h : Transferring n s) : TransferRun n (busyInstant i s) := by
  obtain ⟨hseq, hbte, _, hbusy, _⟩ := onHost_busyHost_seq i s
  have hstep := transferRun_seqStep i (hbusy.trans hb) (h.congr hseq hbte (onHost_busyHost_err i s))
  rw [busyInstant_noReset hr]
  exact ⟨fun hb' => (hstep.active hb').congr rfl rfl rfl, hstep.result⟩

theorem run_transferRun {n : Byte} {l : List Instant} (hl : ∀ i ∈ l, i.reset = false) {s : State}
    (h : TransferRun n s) : TransferRun n (run l s) :=
  run_invariant (P := TransferRun n) (Q := fun i => i.reset = false) rfl
    (fun _ _ h => ⟨fun hb => (h.active hb).congr rfl rfl rfl, h.result⟩)
    (fun _ _ hr hb h => transferRun_busyInstant hr hb (h.active hb)) l hl s h

/-- Settles O19: a transfer command is under way until it is over with one of the triples. -/
theorem resultTriple : Obligations.ResultTriple := by
  intro s t i x hr hn hx he hb
  obtain ⟨hsingle, _, hlen, hbegun⟩ := xfer_single hx
  have hstart : TransferRun s.ops.len (s.accepted i) := by
    rw [accepted_single hsingle, hbegun]
    exact .of_active rfl ⟨rfl, rfl, hlen, .of_live rfl⟩
  rw [exec_ready hr] at he
  rw [← Host.Outcome.next.inj he] at hb ⊢
  exact (run_transferRun hn hstart).result hb

end Sys2Proof.Machine
end

section
/-! A command line of a script as host writes (spec/30_encoding.md R108, R109, R112): what each group of writes leaves in
the operand registers and in `DBUF`. -/

namespace Sys2Proof.Machine

theorem writeAll_nil (s : State) : s.writeAll [] = s := rfl

theorem writeAll_cons (w : HostWrite) (ws : List HostWrite) (s : State) :
    s.writeAll (w :: ws) = (s.writeReg w.1 w.2).writeAll ws := rfl

theorem writeAll_append (ws vs : List HostWrite) (s : State) :
    s.writeAll (ws ++ vs) = (s.writeAll ws).writeAll vs :=
  List.foldl_append

/-! ### The operand registers -/

/-- The low byte of a number, then its next byte, make a 16-bit register hold it, whatever it held (R23). -/
theorem setHigh_setLow (h : Half) (n : Nat) :
    setHigh (setLow h (BitVec.ofNat 8 n)) (BitVec.ofNat 8 (n / 256)) = BitVec.ofNat 16 n := by
  apply BitVec.eq_of_toNat_eq
  rw [setHigh, (low_setLow _ _).1, toNat_append_byte]
  simp only [BitVec.toNat_ofNat]
  omega

/-- `DEV` for a device address and a number of address bytes (R24). -/
def devByte (p : Nat × Nat) : Byte := BitVec.ofNat 8 (p.1 + if p.2 = 2 then 128 else 0)

theorem writeReg_dev (v : Byte) (s : State) : s.writeReg 4#9 v = { s with ops := { s.ops with dev := v } } := rfl

theorem writeReg_offLow (v : Byte) (s : State) :
    s.writeReg 5#9 v = { s with ops := { s.ops with off := setLow s.ops.off v } } := rfl

theorem writeReg_offHigh (v : Byte) (s : State) :
    s.writeReg 6#9 v = { s with ops := { s.ops with off := setHigh s.ops.off v } } := rfl

theorem writeReg_len (v : Byte) (s : State) : s.writeReg 7#9 v = { s with ops := { s.ops with len := v } } := rfl

theorem writeReg_idxLow (v : Byte) (s : State) :
    s.writeReg 9#9 v = { s with ops := { s.ops with idx := setLow s.ops.idx v } } := rfl

theorem writeReg_idxHigh (v : Byte) (s : State) :
    s.writeReg 10#9 v = { s with ops := { s.ops with idx := setHigh s.ops.idx v } } := rfl

theorem writeAll_expandDev (p : Option (Nat × Nat)) (s : State) :
    s.writeAll (expandDev p) = { s with ops := { s.ops with dev := (p.map devByte).getD s.ops.dev } } := by
  cases p with
  | none => rfl
  | some p => simp [expandDev, writeAll_cons, writeAll_nil, writeReg_dev, devByte]

theorem writeAll_expandOff (n : Option Nat) (s : State) :
    s.writeAll (expandOff n) =
      { s with ops := { s.ops with off := (n.map (BitVec.ofNat 16)).getD s.ops.off } } := by
  cases n with
  | none => rfl
  | some n => simp [expandOff, writeAll_cons, writeAll_nil, writeReg_offLow, writeReg_offHigh, setHigh_setLow]

theorem writeAll_expandLen (n : Option Nat) (s : State) :
    s.writeAll (expandLen n) =
      { s with ops := { s.ops with len := (n.map (BitVec.ofNat 8)).getD s.ops.len } } := by
  cases n with
  | none => rfl
  | some n => simp [expandLen, writeAll_cons, writeAll_nil, writeReg_len]

theorem writeAll_expandIdx (n : Option Nat) (s : State) :
    s.writeAll (expandIdx n) =
      { s with ops := { s.ops with idx := (n.map (BitVec.ofNat 16)).getD s.ops.idx } } := by
  cases n with
  | none => rfl
  | some n => simp [expandIdx, writeAll_cons, writeAll_nil, writeReg_idxLow, writeReg_idxHigh, setHigh_setLow]

/-! ### `DBUF` -/

/-- A write of the buffer's window (R23, R30). -/
theorem writeReg_window {k : Nat} (hk : k < 256) (v : Byte) (s : State) :
    s.writeReg (BitVec.ofNat 9 (0x100 + k)) v = { s with dbuf := Memory.write s.dbuf k v } := by
  have haddr : (BitVec.ofNat 9 (0x100 + k)).toNat = 0x100 + k := by rw [BitVec.toNat_ofNat]; omega
  have hidx : ((BitVec.ofNat 9 (0x100 + k)).setWidth 8).toNat = k := by rw [BitVec.toNat_setWidth, haddr]; omega
  rw [State.writeReg, if_pos ((addr_bit8 _).2 (by omega)), State.dbufSet, hidx]

theorem writeAll_expandData (k : Nat) (ds : List Nat) (hk : k + ds.length ≤ 256) (s : State) :
    s.writeAll (expandData k ds) = { s with dbuf := Memory.writeBytes k (ds.map (BitVec.ofNat 8)) s.dbuf } := by
  induction ds generalizing k s with
  | nil => rfl
  | cons d ds ih =>
    rw [List.length_cons] at hk
    rw [expandData, writeAll_cons, writeReg_window (by omega)]
    exact ih (k + 1) (by omega) _

/-! ### A well-formed line -/

/-- The ranges of R112. -/
structure LineInRange (l : Line) : Prop where
  dev : ∀ d w, l.dev = some (d, w) → d < 128 ∧ (w = 1 ∨ w = 2)
  off : ∀ n, l.off = some n → n < 65536
  len : ∀ n, l.len = some n → n < 256
  idx : ∀ n, l.idx = some n → n < 65536
  data : ∀ ds, l.data = some ds → (∀ d ∈ ds, d < 256) ∧ ds.length ≤ 256

theorem lineInRange_of_wf {l : Line} (h : l.wf = true) : LineInRange l := by
  simp only [Line.wf, Bool.and_eq_true] at h
  obtain ⟨⟨⟨⟨⟨_, hdev⟩, hoff⟩, hlen⟩, hidx⟩, hdata⟩ := h
  constructor
  case dev => intro d w he; simp_all [Line.devOk]
  case off => intro n he; simp_all [Line.offOk]
  case len => intro n he; simp_all [Line.lenOk]
  case idx => intro n he; simp_all [Line.idxOk]
  case data =>
    intro ds he
    simp only [Line.dataOk, he, Bool.and_eq_true, List.all_eq_true, decide_eq_true_eq] at hdata
    refine ⟨hdata.1, ?_⟩
    have hfit := hdata.2
    split at hfit <;> simp at hfit <;> omega

/-- The state a line's operand writes leave: what the line names, the rest as it was (R108, R109). -/
theorem writeAll_operandWrites {l : Line} (h : LineInRange l) (s : State) :
    s.writeAll (Line.operandWrites l) =
      { s with
        ops := { dev := (l.dev.map devByte).getD s.ops.dev, off := (l.off.map (BitVec.ofNat 16)).getD s.ops.off,
                 len := (l.len.map (BitVec.ofNat 8)).getD s.ops.len,
                 idx := (l.idx.map (BitVec.ofNat 16)).getD s.ops.idx }
        dbuf := Memory.writeBytes 0 ((l.data.getD []).map (BitVec.ofNat 8)) s.dbuf } := by
  have hfit : 0 + (l.data.getD []).length ≤ 256 := by
    cases hd : l.data with
    | none => simp
    | some ds => simpa using (h.data ds hd).2
  rw [Line.operandWrites, writeAll_append, writeAll_append, writeAll_append, writeAll_append, writeAll_expandDev,
    writeAll_expandOff, writeAll_expandLen, writeAll_expandIdx, writeAll_expandData 0 _ hfit]

/-- `DEV` holds the device address and the number of address bytes (R103). -/
theorem opDev_opAw_devByte {s : State} {d w : Nat} (hs : s.ops.dev = devByte (d, w)) (hd : d < 128)
    (hw : w = 1 ∨ w = 2) : s.opDev.toNat = d ∧ s.opAw.toNat = w := by
  have hbyte : s.ops.dev.toNat = d + if w = 2 then 128 else 0 := by
    rw [hs, devByte, BitVec.toNat_ofNat]
    split <;> omega
  have hbit : s.ops.dev.getLsbD 7 = true ↔ w = 2 := by
    rw [← BitVec.testBit_toNat, Nat.testBit_eq_decide_div_mod_eq, decide_eq_true_eq, hbyte]
    split <;> omega
  constructor
  · rw [State.opDev, BitVec.toNat_setWidth, hbyte]
    split <;> omega
  · rw [State.opAw]
    rcases hw with rfl | rfl
    · rw [if_neg (by rw [hbit]; decide)]; rfl
    · rw [if_pos (hbit.2 rfl)]; rfl

/-- Settles O60: the operand registers and `DBUF` after the writes, field by field. -/
theorem lineSetsOperands : Obligations.LineSetsOperands := by
  intro l s hwf
  have h := lineInRange_of_wf hwf
  rw [writeAll_operandWrites h s]
  refine ⟨fun d w he => ?_, fun n he => ?_, fun n he => ?_, fun n he => ?_, fun ds he b => ?_,
    fun he => ?_, fun he => ?_, fun he => ?_, fun he => ?_, fun he => ?_⟩
  · obtain ⟨hd, hw⟩ := h.dev d w he
    exact opDev_opAw_devByte (by simp [he]) hd hw
  · simpa [he] using h.off n he
  · simpa [he] using h.len n he
  · simpa [he] using h.idx n he
  · obtain ⟨hbytes, _⟩ := h.data ds he
    have hget := dbufGet_writeBytes s (ds.map (BitVec.ofNat 8)) b
    rw [he]
    refine (congrArg BitVec.toNat hget).trans ?_
    rw [apply_dite BitVec.toNat]
    simp only [List.length_map, List.getElem_map, BitVec.toNat_ofNat]
    refine dite_congr rfl (fun hb => ?_) (fun _ => rfl)
    exact Nat.mod_eq_of_lt (hbytes _ (List.getElem_mem hb))
  all_goals simp [he, Memory.writeBytes]

end Sys2Proof.Machine
end

section
/-! How a transaction breaks off (R132, R136, R151, R152, R155, R275): a status that leads to no next state, the STOP that
follows it, and what is left when the operation has acted on the failure. A lost arbitration restarts instead (R145). -/

namespace Sys2Proof.Machine

/-! ### One answered primitive -/

theorem step_answer {s : State} {p : Prim} {st d : Byte} {rest : List Instant} (h : Outstanding s p)
    (hin : s.env.inputs = .answer st d :: rest) : step s = .next (takeStatus p st d (s.withInputs rest)) := by
  rw [step_listed hin, instant_busy (s := s.withInputs rest) rfl h.busy,
    busyInstant_answer (s := s.withInputs rest) h.request h.noStop h.task]

/-- A status that leads to no next state writes nothing but `BSTAT`, a select-NACK apart (R132, R137). -/
theorem observe_of_noCont (d : Byte) {s : State} {st : Byte} (hl : s.bte.pstate.live = true)
    (hc : ∀ p, verdict s.cfg s.bte st ≠ .cont p) (hn : ¬ (s.bte.pstate = .slaw ∧ st = stSlawNack)) :
    s.observe st d = { s with bte := { s.bte with bstat := st } } := by
  cases hp : s.bte.pstate <;> simp only [hp, PState.live, Bool.false_eq_true] at hl <;>
    simp only [verdict, hp] at hc <;> simp only [State.observe, hp]
  case slaw => rw [if_neg fun h => hn ⟨hp, h⟩]
  case start | rstart => rw [if_neg fun h => hc _ (if_pos h)]
  case rdata => exact if_neg fun h => hc _ (if_pos h)
  case wdata => rw [if_neg fun h => hc _ (if_pos h)]

/-- The engine about to issue the STOP of a transaction that fails with `c` at the status `st` (R132). -/
def Bte.aborting (b : Bte) (st : Byte) (c : FailCode) : Bte := { b with bstat := st, pstate := .stopFail, xcode := c }

theorem takeStatus_abort {s : State} {st : Byte} {c : FailCode} (hl : s.bte.pstate.live = true)
    (hv : verdict s.cfg s.bte st = .abort c) (hn : ¬ (s.bte.pstate = .slaw ∧ st = stSlawNack)) (p : Prim) (d : Byte) :
    takeStatus p st d s =
      s.went ⟨p, some st, p.returns d⟩ (s.bte.aborting st c) := by
  have hob := observe_of_noCont d (s := s.logPrim ⟨p, some st, p.returns d⟩) hl (by rw [logPrim_cfg, logPrim_bte, hv]; nofun) hn
  have hb : bteStatus st d (s.logPrim ⟨p, some st, p.returns d⟩) =
      (((s.logPrim ⟨p, some st, p.returns d⟩).observe st d).abort c, none) := by
    simp only [bteStatus, logPrim_cfg, logPrim_bte, hv]
  rw [takeStatus, hb, hob]
  rfl

/-! ### The operation after a failure -/

/-- An operation issues no primitive and leaves the last status and the count as the transaction left them. -/
theorem Acts.bus {s t : State} (h : Acts s t) :
    t.env.prims = s.env.prims ∧ t.bte.count = s.bte.count ∧ t.bte.bstat = s.bte.bstat := by
  induction h
  case complete | endCount | failPass | noScan | endPass | transmit | xfer => exact ⟨rfl, rfl, rfl⟩
  case raise ih | latchTime ih | load ih | countUp ih | window ih | rescan ih | moveCursor ih | acked ih => exact ih

theorem finish_bus (r : XferResult) (s : State) :
    (finish r s).env.prims = s.env.prims ∧ (finish r s).env.inputs = s.env.inputs ∧
      (finish r s).bte.count = s.bte.count ∧ (finish r s).bte.bstat = s.bte.bstat := by
  by_cases h : s.seq.task = .idle ∨ s.seq.task.transmitting = true
  · rw [finish_none r h]
    exact ⟨rfl, rfl, rfl, rfl⟩
  · have ha : Acts s (finish r s) := acts_finish r (fun hi => h (.inl hi)) (by simpa using fun ht => h (.inr ht))
    obtain ⟨hprims, hcount, hbstat⟩ := ha.bus
    exact ⟨hprims, ha.inputs, hcount, hbstat⟩

theorem brokeOff_finish {s : State} (hb : s.busy = true) {e : Byte} {b : Bte} (hp : b.pstate = .idle) (hc : b.count = 0)
    (ps : List PrimEvent) (rest : List Instant) :
    BrokeOff s (finish .failed { s with err := e, bte := b, env := { s.env with inputs := rest, prims := s.env.prims ++ ps } })
      e b ps rest := by
  obtain ⟨hprims, hinputs, hcount, hbstat⟩ := finish_bus .failed
    { s with err := e, bte := b, env := { s.env with inputs := rest, prims := s.env.prims ++ ps } }
  exact ⟨hprims, hinputs, hcount.trans hc, hbstat, fun hi => finish_failed s e b ps rest hb hp hi⟩

/-- The two steps of an aborted transaction: the status, and the STOP, after which the operation acts on the failure. -/
theorem steps_abort {s : State} {p : Prim} {st d : Byte} {rest : List Instant} (h : Outstanding s p)
    (hin : s.env.inputs = .answer st d :: Instant.quiet :: rest) (e : PrimEvent) (b : Bte) (c : FailCode)
    (hw : ∀ l, takeStatus p st d (s.withInputs l) = (s.withInputs l).went e (b.aborting st c)) :
    ∃ t u, step s = .next t ∧ t.request = some .stop ∧ t.dbuf = s.dbuf ∧ step t = .next u ∧
      BrokeOff s u c.code { b with pstate := .idle, count := 0, bstat := st, xcode := c } [e, .stopped] rest := by
  refine ⟨(s.withInputs (Instant.quiet :: rest)).went e (b.aborting st c), _, by rw [step_answer h hin, hw], rfl, rfl, ?_,
    brokeOff_finish h.busy (b := { b with pstate := .idle, count := 0, bstat := st, xcode := c }) rfl rfl _ rest⟩
  rw [step_listed (rest := rest) rfl, instant_busy rfl (by exact h.busy), busyInstant_stop rfl (by exact h.task)]
  simp [takeStop, bteStop, Bte.aborting, State.went, State.withInputs, State.logPrim, State.raise, PrimEvent.stopped]

/-! ### The statuses -/

theorem not_mem_named_start {st e : Byte} : st ∉ PState.named e .start ↔ isStart st = false ∧ st ≠ stArbLost := by
  simp [PState.named, isStart, and_assoc]

theorem verdict_notStart {cfg : Params} {b : Bte} {st : Byte} (hp : b.pstate = .start) (hs : isStart st = false)
    (ha : st ≠ stArbLost) : verdict cfg b st = .notStart := by
  simp only [verdict, hp, hs, if_neg ha, Bool.false_eq_true, if_false]

/-- A status that the rule of a state under way does not name aborts, `P_START` apart (R152). -/
theorem verdict_unnamed {cfg : Params} {b : Bte} {st : Byte} (hl : b.pstate.live = true) (hp : b.pstate ≠ .start)
    (hn : st ∉ PState.named b.expected b.pstate) : verdict cfg b st = .abort .status := by
  cases hps : b.pstate <;> simp only [hps, PState.live, Bool.false_eq_true] at hl <;>
    simp [hps, PState.named] at hn
  case start => exact absurd hps hp
  all_goals simp [verdict, isStart, hps, hn]

/-- A refused byte aborts (R140, R141, R143, R149). -/
theorem verdict_byteNack {cfg : Params} {b : Bte} {st : Byte} (h : b.pstate.byteNack = some st) :
    verdict cfg b st = .abort .byteNack ∧ b.pstate ≠ .slaw := by
  cases hps : b.pstate <;> simp only [hps, PState.byteNack, reduceCtorEq, Option.some.injEq] at h <;> subst h <;>
    simp [verdict, hps]

/-- Settles O15: an unnamed status aborts, and nothing but `BSTAT` is written before the STOP. -/
theorem unexpectedStatus : Obligations.UnexpectedStatus := by
  intro s p st d rest h hp hn hin
  obtain ⟨hl, _⟩ := live_of_request h.request h.noStop
  have hslaw : ¬ (s.bte.pstate = .slaw ∧ st = stSlawNack) := by
    rintro ⟨hps, rfl⟩
    exact hn (by rw [hps]; simp [PState.named])
  exact steps_abort h hin _ s.bte .status fun l =>
    takeStatus_abort (s := s.withInputs l) hl (verdict_unnamed hl hp hn) hslaw p d

/-- Settles O16: a refused byte aborts, and the STOP is the one primitive after it. -/
theorem byteNackStops : Obligations.ByteNackStops := by
  intro s p st d rest h hn hin
  obtain ⟨hl, _⟩ := live_of_request h.request h.noStop
  obtain ⟨hv, hps⟩ := verdict_byteNack (cfg := s.cfg) hn
  obtain ⟨t, u, hstep, hreq, _, hnext, hbroke⟩ := steps_abort h hin _ s.bte .byteNack fun l =>
    takeStatus_abort (s := s.withInputs l) hl hv (fun hs => hps hs.1) p d
  exact ⟨t, u, hstep, hreq, hnext, hbroke⟩

/-! ### No start condition -/

/-- No start condition, and none seen before: the transaction is over without STOP (R136). -/
theorem takeStatus_exit {s : State} {st : Byte} (hp : s.bte.pstate = .start) (hs : isStart st = false) (ha : st ≠ stArbLost)
    (ho : s.bte.owned = false) (d : Byte) :
    takeStatus .start st d s =
      finish .failed
        { s with err := 1, bte := { s.bte with pstate := .idle, count := 0, bstat := st }
                 env := { s.env with prims := s.env.prims ++ [.sent .start st] } } := by
  have hv : verdict s.cfg s.bte st = .notStart := verdict_notStart hp hs ha
  have hob := observe_of_noCont d (s := s.logPrim (.sent .start st)) (by rw [logPrim_bte, hp]; rfl)
    (by rw [logPrim_cfg, logPrim_bte, hv]; nofun) (by simp [hp])
  have hb : bteStatus st d (s.logPrim (.sent .start st)) =
      (((s.logPrim (.sent .start st)).observe st d).exitNoStop, some .failed) := by
    simp only [bteStatus, logPrim_cfg, logPrim_bte, hv, ho, Bool.false_eq_true, if_false]
  rw [takeStatus, show (⟨.start, some st, Prim.start.returns d⟩ : PrimEvent) = .sent .start st from rfl, hb, hob]
  rfl

/-- ... and with a start seen before, it aborts (R136). -/
theorem takeStatus_notStart {s : State} {st : Byte} (hp : s.bte.pstate = .start) (hs : isStart st = false)
    (ha : st ≠ stArbLost) (ho : s.bte.owned = true) (d : Byte) :
    takeStatus .start st d s =
      s.went (.sent .start st) (s.bte.aborting st .notStart) := by
  have hv : verdict s.cfg s.bte st = .notStart := verdict_notStart hp hs ha
  have hob := observe_of_noCont d (s := s.logPrim (.sent .start st)) (by rw [logPrim_bte, hp]; rfl)
    (by rw [logPrim_cfg, logPrim_bte, hv]; nofun) (by simp [hp])
  have hb : bteStatus st d (s.logPrim (.sent .start st)) =
      (((s.logPrim (.sent .start st)).observe st d).abort .notStart, none) := by
    simp only [bteStatus, logPrim_cfg, logPrim_bte, hv, ho, if_true]
  rw [takeStatus, show (⟨.start, some st, Prim.start.returns d⟩ : PrimEvent) = .sent .start st from rfl, hb, hob]
  rfl

/-- Settles O14: the two exits of `P_START`, told apart by `OWNED`. -/
theorem notStartExit : Obligations.NotStartExit := by
  intro s st d rest h hp hn
  obtain ⟨hs, ha⟩ := not_mem_named_start.1 hn
  refine ⟨fun ho hin => ?_, fun ho hin => ?_⟩
  · refine ⟨_, by rw [step_answer h hin, takeStatus_exit (s := s.withInputs rest) hp hs ha ho], ?_⟩
    exact brokeOff_finish h.busy (b := { s.bte with pstate := .idle, count := 0, bstat := st }) rfl rfl [.sent .start st] rest
  · obtain ⟨t, u, hstep, hreq, _, hnext, hbroke⟩ := steps_abort h hin _ s.bte .notStart fun l =>
      takeStatus_notStart (s := s.withInputs l) hp hs ha ho d
    exact ⟨t, u, hstep, hreq, hnext, hbroke⟩

/-! ### Lost arbitration -/

theorem run_lost {s : State} {p : Prim} (h : Outstanding s p) (d : Byte) (l : List Instant) :
    run (.answer stArbLost d :: l) s = run l (s.lost p d 0) := by
  obtain ⟨hl, _⟩ := live_of_request h.request h.noStop
  exact run_went h.busy h.task h.request h.noStop (takeStatus_arbLost (s := s.withInputs l) hl p d)

theorem run_replicate_lost {s : State} {p : Prim} (h : Outstanding s p) (n : Nat) (rest : List Instant) :
    run (List.replicate (n + 1) (.answer stArbLost 0) ++ rest) s = run rest (s.lost p 0 n) := by
  induction n generalizing s p with
  | zero => exact run_lost h 0 rest
  | succ n ih =>
    have hstart : Outstanding (s.lost p 0 0) .start := ⟨h.busy, h.task, rfl, nofun⟩
    rw [List.replicate_succ, List.cons_append, run_lost h, ih hstart]
    simp only [State.lost, List.append_assoc]
    rfl

/-- Settles O17: a lost arbitration restarts in every state under way, by induction on the number of losses. -/
theorem arbitrationRestarts : Obligations.ArbitrationRestarts := by
  intro s p d rest h
  obtain ⟨hl, _⟩ := live_of_request h.request h.noStop
  refine ⟨fun hin => ?_, fun n => run_replicate_lost h n rest⟩
  rw [step_answer h hin, takeStatus_arbLost (s := s.withInputs rest) hl p d]
  rfl

end Sys2Proof.Machine
end

section
/-! A transaction that gets no start condition at its first START (R136, R186, R187), and what the transfer commands'
transactions issue when they succeed (R158, R164). -/

namespace Sys2Proof.Machine

/-! ### No start condition at the first START -/

/-- An answer that arrives with or without a TICK edge. -/
theorem busyInstant_answer_tick {s : State} {p : Prim} (hr : s.request = some p) (hp : p ≠ .stop)
    (ht : s.seq.task.transmitting = false) (st d : Byte) (tick : Bool) :
    busyInstant { bus := some (st, d), tick := tick } s = State.latchTick tick (takeStatus p st d s) := by
  rw [← busyInstant_answer hr hp ht, busyInstant_noReset rfl, busyInstant_noReset rfl,
    show (Instant.answer st d).tick = false from rfl, latchTick_false]
  rfl

/-- The run of a transaction whose first START is refused: its operation gets the failure at once (R136). -/
theorem run_startXfer_refused {s : State} (x : Xfer) {st : Byte} (hb : s.busy = true) (ht : s.seq.task.transmitting = false)
    (hn : st ∉ PState.named 0 .start) (d : Byte) (tick : Bool) (rest : List Instant) :
    run ({ bus := some (st, d), tick := tick } :: rest) (s.startXfer x.kind x.dev x.aw x.off x.len) =
      run rest
        (State.latchTick tick
          (finish .failed
            { s with err := 1, bte := s.bte.refused x st
                     env := { s.env with inputs := rest, prims := s.env.prims ++ [.sent .start st] } })) := by
  obtain ⟨hs, ha⟩ := not_mem_named_start.1 hn
  rw [run_cons (by exact hb), busyInstant_answer_tick (p := .start) rfl nofun (by exact ht),
    takeStatus_exit rfl hs ha rfl]
  rfl

/-- A command of one transaction whose first START is refused, up to the result of that transaction. -/
theorem exec_single_refused {s : State} {i : Instr} {x : Xfer} {st d : Byte} {rest : List Instant} (hr : Ready s)
    (hx : s.single? i = some x) (hn : st ∉ PState.named 0 .start) (hin : s.env.inputs = .answer st d :: rest) :
    exec i s =
      .next (run rest
        (finish .failed
          { (s.commandStart (encodeByte i)).begun i with
            err := 1, bte := s.bte.refused x st
            env := { s.env with inputs := rest, prims := s.env.prims ++ [.sent .start st] } })) := by
  have hbusy : ((s.commandStart (encodeByte i)).begun i).busy = true := by cases i <;> rfl
  have hbte : ((s.commandStart (encodeByte i)).begun i).bte = s.bte := by cases i <;> rfl
  have henv : ((s.commandStart (encodeByte i)).begun i).env = s.env := by cases i <;> rfl
  have hrun := run_startXfer_refused x hbusy (begun_single hx _).waits.2 hn d false rest
  rw [latchTick_false, hbte, henv] at hrun
  rw [exec_ready hr, accepted_single hx, hin]
  exact congrArg _ hrun

/-- An operation that completes with a failure leaves `BUSY` and its place in the pseudocode as an idle block has them. -/
theorem Ready.failed_eq {s : State} (h : Ready s) (c e : Byte) (b : Bte) (ps : List PrimEvent) (rest : List Instant) :
    s.failed c e b ps rest =
      { s with cmd := c, src := false, fail := true, err := e, bte := b, busy := false,
               seq := { s.seq with task := .idle },
               env := { s.env with inputs := rest, prims := s.env.prims ++ ps } } := by
  have hseq : { s.seq with task := .idle } = s.seq := by rw [← h.task]
  rw [State.failed, hseq, h.busy]

/-- Settles O23: each of the two commands is one transaction, and acts on its failure. -/
theorem clockReadsFail : Obligations.ClockReadsFail := by
  intro s st d rest hr hn hin
  constructor
  · rw [exec_single_refused (i := .gettime) hr rfl hn hin, run_idle (by rfl), hr.failed_eq]
    rfl
  · rw [exec_single_refused (i := .loadcfg) hr rfl hn hin, run_idle (by rfl), hr.failed_eq]
    rfl

/-! ### The primitives of a transaction that succeeds -/

theorem length_dataPrims (ds : List Byte) : (dataPrims ds).length = ds.length := by
  induction ds with
  | nil => rfl
  | cons b ds ih =>
    cases ds with
    | nil => rfl
    | cons c ds => rw [dataPrims, List.length_cons, ih]; rfl

theorem length_selectPrims (st : Byte) (dev : DevAddr) {aw : BitVec 2} (ha : aw = 1 ∨ aw = 2) (off : Half) :
    (selectPrims st dev aw off).length = aw.toNat + 2 := by
  rcases ha with rfl | rfl <;> rfl

/-- R158: START, the selection and the address bytes, for a Read START and selection once more, the data, STOP. -/
theorem Xfer.length_prims (x : Xfer) (ha : x.aw = 1 ∨ x.aw = 2) (st st2 : Byte) (ds : List Byte) :
    (x.prims st st2 ds).length = x.aw.toNat + ds.length + (match x.kind with | .rd => 5 | .wr => 3) := by
  obtain ⟨kind, dev, aw, off, len⟩ := x
  have hsel := length_selectPrims st dev ha off
  cases kind
  · simp only [Xfer.prims, readPrims, List.length_append, hsel, length_dataPrims, List.length_cons, List.length_nil]
    omega
  · simp only [Xfer.prims, writePrims, List.length_append, hsel, List.length_map, List.length_cons, List.length_nil]
    omega

/-- Settles O12: the history of a transfer command grows by its transaction's primitives. -/
theorem primitiveCounts : Obligations.PrimitiveCounts := by
  intro s i x st st2 ds rest hr hs hs2 hx hd hin
  obtain ⟨hsingle, _⟩ := xfer_single hx
  refine ⟨_, exec_transfer hr hx hs (fun _ => hs2) hd hin, hr.busy, ?_⟩
  have hlen := x.length_prims (single_aw hsingle) st st2 ds
  rw [hd.1] at hlen
  simp only [State.ended, List.length_append, hlen]
  cases x.kind <;> dsimp only <;> omega

/-- Settles O11: the transfer of no byte. -/
theorem zeroLength : Obligations.ZeroLength := by
  intro s i x st st2 rest hr hs hs2 hx hlen hin
  have hd : x.data s [] := ⟨by rw [hlen]; rfl, fun _ => by rw [hlen]; rfl⟩
  obtain ⟨kind, dev, aw, off, len⟩ := x
  obtain rfl : len = 0 := hlen
  refine ⟨_, exec_transfer hr hx hs (fun _ => hs2) hd hin, hr.busy, rfl, rfl, rfl, ?_, rfl, ?_⟩ <;> cases kind
  · rfl
  · rfl
  · simp [State.ended, Xfer.prims, readPrims, dataPrims]
  · simp [State.ended, Xfer.prims, writePrims]

end Sys2Proof.Machine
end

section
/-! The primitives of an operation of one transaction, over every trace: what one instant adds to the history, and what
follows for a whole run, that the bus is released (R154) and that the selections are bounded (R138). -/

namespace Sys2Proof.Machine

/-! ### One instant -/

/-- What one instant of a busy block adds to the history of an operation of one transaction. -/
inductive Issued (s t : State) : Prop where
  /-- Nothing: the block waits, or a data phase that is over goes on to its STOP. -/
  | nothing (hprims : t.env.prims = s.env.prims) (hbusy : t.busy = true)
      (hbte : t.bte = s.bte ∨ (s.request = none ∧ t.bte = { s.bte with pstate := .stopOk }))
  /-- The STOP, after which the operation is over. -/
  | stop (hprims : t.env.prims = s.env.prims ++ [.stopped]) (hbusy : t.busy = false)
  /-- A primitive, whose status the engine takes. -/
  | status (p : Prim) (st d : Byte) (v : State) (hreq : s.request = some p) (hp : p ≠ .stop)
      (hprims : t.env.prims = s.env.prims ++ [⟨p, some st, p.returns d⟩]) (hcfg : v.cfg = s.cfg) (hv : v.bte = s.bte)
      (hbusy : t.busy = true) (hbte : t.bte = (bteStatus st d v).1.bte) (hnone : (bteStatus st d v).2 = none)
  /-- The first START, refused: the operation is over without STOP (R136). -/
  | exit (st : Byte) (hp : s.bte.pstate = .start) (howned : s.bte.owned = false) (hst : st ∉ PState.named 0 .start)
      (hprims : t.env.prims = s.env.prims ++ [.sent .start st]) (hbusy : t.busy = false) (herr : t.err = 1)
      (hfail : t.fail = true)

/-- A transaction ends at a status only where no start condition was ever seen. -/
theorem bteStatus_some {st d : Byte} {s : State} {r : XferResult} (h : (bteStatus st d s).2 = some r) :
    verdict s.cfg s.bte st = .notStart ∧ s.bte.owned = false ∧ r = .failed ∧ (bteStatus st d s).1.err = 1 := by
  unfold bteStatus at h ⊢
  split at h
  case h_4 hv =>
    cases ho : s.bte.owned <;> simp only [ho, if_true, if_false, Bool.false_eq_true, reduceCtorEq, Option.some.injEq] at h
    exact ⟨hv, rfl, h.symm, rfl⟩
  all_goals cases h

/-- Only `P_START` has the exit without STOP. -/
theorem pstate_of_notStart {cfg : Params} {b : Bte} {st : Byte} (h : verdict cfg b st = .notStart) :
    b.pstate = .start ∧ st ∉ PState.named 0 .start := by
  rw [not_mem_named_start]
  cases hp : b.pstate <;> simp only [verdict, hp, reduceCtorEq] at h <;> split_ifs at h
  next hs ha => exact ⟨rfl, by simpa using hs, ha⟩

theorem bteStatus_env (st d : Byte) (s : State) : (bteStatus st d s).1.env = s.env := by
  have hob : (s.observe st d).env = s.env := by rw [observe_frame]
  rcases bteStatus_cases st d s with ⟨p, he⟩ | he | ⟨c, he⟩ | ⟨_, he⟩ <;> rw [he]
  · exact (congrArg State.env (enter_frame p _)).trans hob
  · exact hob
  · exact hob
  · exact hob

theorem bteStop_env (s : State) : (bteStop s).1.env = s.env := by
  rcases bteStop_cases s with ⟨_, he⟩ | ⟨_, he⟩ <;> rw [he]

/-- An operation of one transaction fails with its transaction, and with the same code. -/
theorem finish_failed_single {n : Byte} {s : State} (h : s.seq.task.Single n) :
    (finish .failed s).fail = true ∧ (finish .failed s).err = s.err := by
  rcases h with h | h | h | h | ⟨h, _⟩ <;> simp only [finish, h] <;> exact ⟨rfl, rfl⟩

theorem request_start {s : State} (h : s.bte.pstate = .start) : s.request = some .start := by
  simp [State.request, h]

theorem seqStep_issued {n : Byte} (i : Instant) {s : State} (hb : s.busy = true) (ht : s.seq.task.Single n) :
    Issued s (seqStep i s) := by
  rcases seqStep_cases i s with he | ⟨more, hx, _⟩ | ⟨hr, he⟩ | ⟨_, he⟩ | ⟨p, st, d, hr, hp, _, he⟩
  case inr.inl => have hno := ht.waits.2; rw [hx] at hno; cases hno
  all_goals rw [he]
  · exact .nothing rfl hb (.inl rfl)
  · rcases enter_pstate s.bte.pstate s with ⟨_, _, he⟩ | ⟨_, he⟩ <;> rw [he]
    · exact .nothing rfl hb (.inr ⟨hr, rfl⟩)
    · exact .nothing rfl hb (.inl rfl)
  · have hseq := (engineStep_bteStop (s.logPrim .stopped)).seq
    refine .stop ((finish_bus _ _).1.trans ?_) (finish_single (n := n) ?_ _)
    · rw [bteStop_env]; rfl
    · exact hseq ▸ ht
  · obtain ⟨hl, hd⟩ := live_of_request hr hp
    have hst := engineStep_bteStatus st d (s := s.logPrim ⟨p, some st, p.returns d⟩) hl hd
    have henv := bteStatus_env st d (s.logPrim ⟨p, some st, p.returns d⟩)
    cases hres : (bteStatus st d (s.logPrim ⟨p, some st, p.returns d⟩)).2 with
    | none =>
      rw [takeStatus_none hres]
      exact .status p st d (s.logPrim _) hr hp (congrArg Env.prims henv) rfl rfl (hst.busy.trans hb) rfl hres
    | some r =>
      obtain ⟨hv, ho, rfl, herr⟩ := bteStatus_some hres
      obtain ⟨hps, hnamed⟩ : s.bte.pstate = .start ∧ _ := pstate_of_notStart hv
      obtain rfl : Prim.start = p := by rw [request_start hps] at hr; exact Option.some.inj hr
      have htask : (bteStatus st d (s.logPrim ⟨.start, some st, none⟩)).1.seq.task.Single n := hst.seq ▸ ht
      rw [takeStatus_some hres]
      exact .exit st hps ho hnamed ((finish_bus _ _).1.trans (congrArg Env.prims henv)) (finish_single htask _)
        ((finish_failed_single htask).2.trans herr) (finish_failed_single htask).1

theorem onHost_busyHost_prims (i : Instant) (s : State) : (i.onHost State.busyHost s).env.prims = s.env.prims := by
  unfold Instant.onHost
  split
  · next h _ =>
    rcases busyHost_cases h s with ⟨a, v, he⟩ | ⟨a, he⟩ | ⟨v, he⟩ | he <;> rw [he] <;> rfl
  · rfl

theorem onHost_busyHost_request (i : Instant) (s : State) : (i.onHost State.busyHost s).request = s.request := by
  obtain ⟨_, hbte, hdbuf, _⟩ := onHost_busyHost_seq i s
  have hget := dbufGet_congr hdbuf (onHost_busyHost_frame .idle i s).resets
  simp only [State.request, hbte, hget]

theorem busyInstant_issued {n : Byte} {i : Instant} (hr : i.reset = false) {s : State} (hb : s.busy = true)
    (ht : s.seq.task.Single n) : Issued s (busyInstant i s) := by
  obtain ⟨hseq, hbte, _, hbusy, _⟩ := onHost_busyHost_seq i s
  have hprims := onHost_busyHost_prims i s
  have hreq := onHost_busyHost_request i s
  have hcfg := (onHost_busyHost_frame .idle i s).cfg
  rw [busyInstant_noReset hr]
  cases seqStep_issued i (hbusy.trans hb) (hseq ▸ ht) with
  | nothing hp hb' he => exact .nothing (hp.trans hprims) hb' (by rwa [hbte, hreq] at he)
  | stop hp hb' => exact .stop (hprims ▸ hp) hb'
  | status p st d v hr' hp hps hc hv hb' he hn =>
    exact .status p st d v (hreq.symm.trans hr') hp (hprims ▸ hps) (hc.trans hcfg) (hv.trans hbte) hb' he hn
  | exit st hp ho hst hps hb' herr hf => exact .exit st (hbte ▸ hp) (hbte ▸ ho) hst (hprims ▸ hps) hb' herr hf

/-! ### The run of a command -/

/-- What holds when the transaction of a command begins, and is kept by what one instant may add to the history, holds
where the command's run ends. -/
theorem exec_single_history {P : State → Prop} {s t : State} {i : Instr} {x : Xfer} (hr : Ready s) (hn : NoReset s)
    (hx : s.single? i = some x) (he : exec i s = .next t)
    (hstart : P (((s.commandStart (encodeByte i)).begun i).startXfer x.kind x.dev x.aw x.off x.len))
    (hin : ∀ u l, P u → P (u.withInputs l))
    (hstep : ∀ u v, u.busy = true → v.cfg = u.cfg → Issued u v → P u → P v) : P t := by
  rw [exec_ready hr, accepted_single hx] at he
  obtain rfl := Host.Outcome.next.inj he
  refine (run_invariant (P := fun u => SingleRun x.len _ u ∧ P u) (Q := fun i => i.reset = false) rfl ?_ ?_ _ hn _
    ⟨.start (begun_single hx _), hstart⟩).2
  · exact fun u l h => ⟨h.1.congr rfl rfl rfl rfl rfl, hin u l h.2⟩
  · intro j u hj hb ⟨hs, hp⟩
    exact ⟨busyInstant_singleRun hj hb hs,
      hstep u _ hb (busyInstant_frame hj u).cfg (busyInstant_issued hj hb (hs.task hb)) hp⟩

/-! ### The bus is released -/

/-- The history of a transaction that is under way: no STOP yet, and nothing but lost STARTs while no start condition has
been seen. -/
structure Unreleased (b : Bte) (ps : List PrimEvent) : Prop where
  noStop : ∀ q ∈ ps, q.prim ≠ .stop
  lost : b.owned = false → b.pstate = .start ∧ ∃ n, ps = List.replicate n PrimEvent.lostStart

/-- ... and of one that is over (R154). -/
def Released (t : State) (ps : List PrimEvent) : Prop :=
  (∃ qs, ps = qs ++ [.stopped] ∧ ∀ q ∈ qs, q.prim ≠ .stop) ∨
    (t.err = 1 ∧ t.fail = true ∧
      ∃ n st, ps = List.replicate n PrimEvent.lostStart ++ [.sent .start st] ∧ st ∉ PState.named 0 .start)

/-- The history from `pre` on, whether the transaction is under way or over. -/
structure ReleaseRun (pre : List PrimEvent) (t : State) : Prop where
  history : ∃ ps, t.env.prims = pre ++ ps ∧ (t.busy = true → Unreleased t.bte ps) ∧ (t.busy = false → Released t ps)

theorem ReleaseRun.of_busy {pre ps : List PrimEvent} {t : State} (hp : t.env.prims = pre ++ ps) (hb : t.busy = true)
    (h : Unreleased t.bte ps) : ReleaseRun pre t :=
  ⟨ps, hp, fun _ => h, fun hb' => absurd hb' (by simp [hb])⟩

theorem ReleaseRun.of_idle {pre ps : List PrimEvent} {t : State} (hp : t.env.prims = pre ++ ps) (hb : t.busy = false)
    (h : Released t ps) : ReleaseRun pre t :=
  ⟨ps, hp, fun hb' => absurd hb' (by simp [hb]), fun _ => h⟩

/-- `OWNED` is set at a start status (R134, R142). -/
theorem observe_owned (st d : Byte) (s : State) :
    (s.observe st d).bte.owned =
      if (s.bte.pstate = .start ∨ s.bte.pstate = .rstart) ∧ isStart st = true then true else s.bte.owned := by
  cases hps : s.bte.pstate <;> simp [State.observe, hps] <;> split <;> simp [*]

theorem bteStatus_observed (st d : Byte) (s : State) :
    (bteStatus st d s).1.bte.owned = (s.observe st d).bte.owned ∧
      (bteStatus st d s).1.bte.iter = (s.observe st d).bte.iter := by
  rcases bteStatus_cases st d s with ⟨p, he⟩ | he | ⟨c, he⟩ | ⟨_, he⟩ <;> rw [he]
  · dsimp only
    rw [enter_frame]
    exact ⟨rfl, rfl⟩
  · exact ⟨rfl, rfl⟩
  · exact ⟨rfl, rfl⟩
  · exact ⟨rfl, rfl⟩

/-- While no start condition has been seen, the transaction goes on only where arbitration is lost (R134, R136, R145). -/
theorem bteStatus_unowned {st d : Byte} {s : State} (hp : s.bte.owned = false → s.bte.pstate = .start)
    (hn : (bteStatus st d s).2 = none) (ho : (bteStatus st d s).1.bte.owned = false) :
    s.bte.owned = false ∧ st = stArbLost ∧ (bteStatus st d s).1.bte.pstate = .start := by
  rw [(bteStatus_observed st d s).1, observe_owned] at ho
  obtain ⟨hs, hunowned⟩ : ¬ ((s.bte.pstate = .start ∨ s.bte.pstate = .rstart) ∧ isStart st = true) ∧ s.bte.owned = false := by
    split at ho
    · cases ho
    · next h => exact ⟨h, ho⟩
  have hstart := hp hunowned
  have hst : isStart st = false := by simpa [hstart] using hs
  by_cases ha : st = stArbLost
  · subst ha
    have hv : verdict s.cfg s.bte stArbLost = .restart := verdict_arbLost s.cfg (by rw [hstart]; rfl)
    refine ⟨hunowned, rfl, ?_⟩
    simp only [bteStatus, hv]
    rfl
  · have hv : verdict s.cfg s.bte st = .notStart := verdict_notStart hstart hst ha
    simp [bteStatus, hv, hunowned] at hn

theorem ReleaseRun.step {pre : List PrimEvent} {s t : State} (hb : s.busy = true) (hi : Issued s t)
    (h : ReleaseRun pre s) : ReleaseRun pre t := by
  obtain ⟨ps, hps, hun, _⟩ := h
  obtain ⟨hno, hlost⟩ := hun hb
  cases hi with
  | nothing hp hb' hbte =>
    refine .of_busy (hp.trans hps) hb' ⟨hno, ?_⟩
    rcases hbte with he | ⟨hreq, he⟩ <;> rw [he]
    · exact hlost
    · intro ho
      rw [request_start (hlost ho).1] at hreq
      cases hreq
  | stop hp hb' => exact .of_idle (by rw [hp, hps, List.append_assoc]) hb' (.inl ⟨ps, rfl, hno⟩)
  | status p st d v hreq hp hprims hcfg hv hb' hbte hnone =>
    refine .of_busy (by rw [hprims, hps, List.append_assoc]) hb' ⟨?_, fun ho => ?_⟩
    · intro q hq
      rcases List.mem_append.1 hq with hq | hq
      · exact hno q hq
      · rw [List.mem_singleton.1 hq]; exact hp
    · rw [hbte] at ho ⊢
      obtain ⟨ho', rfl, hps'⟩ := bteStatus_unowned (by rw [hv]; exact fun ho => (hlost ho).1) hnone ho
      rw [hv] at ho'
      obtain ⟨hstart, m, rfl⟩ := hlost ho'
      obtain rfl : Prim.start = p := by rw [request_start hstart] at hreq; exact Option.some.inj hreq
      exact ⟨hps', m + 1, List.replicate_succ'.symm⟩
  | exit st hp ho hst hprims hb' herr hfail =>
    obtain ⟨_, m, rfl⟩ := hlost ho
    exact .of_idle (by rw [hprims, hps, List.append_assoc]) hb' (.inr ⟨herr, hfail, m, st, rfl, hst⟩)

/-- Settles O18: no STOP is in the history before the transaction is over. -/
theorem busReleased : Obligations.BusReleased := by
  intro s t i x hr hn hx he hb
  have hprims : ((s.commandStart (encodeByte i)).begun i).env.prims = s.env.prims := by cases i <;> rfl
  have hbusy : ((s.commandStart (encodeByte i)).begun i).busy = true := by cases i <;> rfl
  have hrun : ReleaseRun s.env.prims t := by
    refine exec_single_history hr hn hx he ?_ (fun u l h => ⟨h.history⟩) (fun u v hub _ hi h => h.step hub hi)
    exact .of_busy (ps := []) (by rw [List.append_nil]; exact hprims) hbusy ⟨nofun, fun _ => ⟨rfl, 0, rfl⟩⟩
  obtain ⟨ps, hps, _, hover⟩ := hrun
  exact ⟨ps, hps, hover hb⟩

end Sys2Proof.Machine
end

section
/-! The retry bound (R137, R138): how many selections a transaction may have refused, and what becomes of it below the
bound and at the bound. -/

namespace Sys2Proof.Machine

/-! ### Over every trace -/

/-- The select-NACK's status in another state than `P_SLAW` is one that no rule names (R152). -/
theorem verdict_slawNack {cfg : Params} {b : Bte} (hl : b.pstate.live = true) (hp : b.pstate ≠ .slaw) :
    verdict cfg b stSlawNack = .abort .status ∨ verdict cfg b stSlawNack = .notStart := by
  by_cases hs : b.pstate = .start
  · exact .inr (verdict_notStart hs rfl (by decide))
  · refine .inl (verdict_unnamed hl hs ?_)
    have hexp : ¬ stSlawNack = b.expected := by unfold Bte.expected; split <;> decide
    cases hps : b.pstate <;> simp only [hps, PState.live, Bool.false_eq_true] at hl
    case start => exact absurd hps hs
    case slaw => exact absurd hps hp
    case rdata => simpa [PState.named] using hexp
    all_goals simp [PState.named]

/-- A transaction stays under way where the status leads to a next state or restarts (R132). -/
theorem verdict_of_live {st d : Byte} {s : State} (h : (bteStatus st d s).1.bte.pstate.live = true) :
    (∃ p, verdict s.cfg s.bte st = .cont p) ∨ verdict s.cfg s.bte st = .restart := by
  unfold bteStatus at h
  split at h
  · next p hv => exact .inl ⟨p, hv⟩
  · next hv => exact .inr hv
  · cases h
  · split at h <;> cases h

/-- `ITER` once a transaction under way goes on at a status: it counts the select-NACKs, and stays below the bound (R137). -/
theorem bteStatus_iter {st d : Byte} {s : State} (hl : s.bte.pstate.live = true) (hi : s.bte.iter < s.cfg.maxIter)
    (ht : (bteStatus st d s).1.bte.pstate.live = true) :
    (bteStatus st d s).1.bte.iter < s.cfg.maxIter ∧
      s.bte.iter.toNat + (if st = stSlawNack then 1 else 0) ≤ (bteStatus st d s).1.bte.iter.toNat := by
  rw [(bteStatus_observed st d s).2, observe_iter]
  by_cases hst : st = stSlawNack
  · have hp : s.bte.pstate = .slaw := by
      by_contra hp
      rcases verdict_slawNack (cfg := s.cfg) hl hp with hv | hv <;> rw [← hst] at hv <;>
        rcases verdict_of_live ht with ⟨p, hv'⟩ | hv' <;> rw [hv] at hv' <;> cases hv'
    have hlt : s.bte.iter + 1 < s.cfg.maxIter := by
      rcases verdict_of_live ht with ⟨p, hv⟩ | hv
      · exact absurd ⟨hp, hst⟩ (verdict_cont_live hl hv).2
      · exact verdict_restart_iter hv hp hst
    rw [if_pos ⟨hp, hst⟩, if_pos hst]
    exact ⟨hlt, by bv_omega⟩
  · rw [if_neg fun h => hst h.2, if_neg hst]
    exact ⟨hi, Nat.le_refl _⟩

/-- How many selections of `dev` a history shows refused. -/
def refusals (dev : DevAddr) (ps : List PrimEvent) : Nat := (ps.filter (PrimEvent.selectNack dev)).length

theorem refusals_append (dev : DevAddr) (ps qs : List PrimEvent) :
    refusals dev (ps ++ qs) = refusals dev ps + refusals dev qs := by
  simp [refusals]

theorem refusals_singleton_le (dev : DevAddr) (p : Prim) (st : Byte) (d : Option Byte) :
    refusals dev [⟨p, some st, d⟩] ≤ if st = stSlawNack then 1 else 0 := by
  split
  · exact List.length_filter_le (PrimEvent.selectNack dev) [⟨p, some st, d⟩]
  · next hst =>
    have hne : PrimEvent.selectNack dev ⟨p, some st, d⟩ = false := by
      rw [PrimEvent.selectNack, Bool.and_eq_false_iff]
      exact .inr (beq_eq_false_iff_ne.2 fun h => hst (Option.some.inj h))
    rw [refusals, List.filter_singleton, hne]
    rfl

/-- The history from `pre` on is within the bound `m`, and `ITER` counts its refusals while the transaction is under way. -/
structure RefusalRun (pre : List PrimEvent) (dev : DevAddr) (m : Byte) (t : State) : Prop where
  cfg : t.cfg.maxIter = m
  history : ∃ ps, t.env.prims = pre ++ ps ∧ refusals dev ps ≤ m.toNat ∧
    (t.busy = true → t.bte.pstate.live = true → refusals dev ps ≤ t.bte.iter.toNat ∧ t.bte.iter < m)

theorem RefusalRun.step {pre : List PrimEvent} {dev : DevAddr} {m : Byte} {s t : State} (hb : s.busy = true)
    (hcfg : t.cfg = s.cfg) (hi : Issued s t) (h : RefusalRun pre dev m s) : RefusalRun pre dev m t := by
  obtain ⟨hm, ps, hps, hle, hlive⟩ := h
  refine ⟨hcfg ▸ hm, ?_⟩
  cases hi with
  | nothing hp hb' hbte =>
    refine ⟨ps, hp.trans hps, hle, fun _ hl => ?_⟩
    rcases hbte with he | ⟨_, he⟩ <;> rw [he] at hl ⊢
    · exact hlive hb hl
    · cases hl
  | stop hp hb' =>
    refine ⟨ps ++ [.stopped], by rw [hp, hps, List.append_assoc], ?_, fun hb => by rw [hb'] at hb; cases hb⟩
    rw [refusals_append]
    exact hle
  | status p st d v hreq hp hprims hcv hbv hb' hbte hnone =>
    obtain ⟨hl, _⟩ := live_of_request hreq hp
    obtain ⟨hcount, hlt⟩ := hlive hb hl
    have hone := refusals_singleton_le dev p st (p.returns d)
    refine ⟨ps ++ [⟨p, some st, p.returns d⟩], by rw [hprims, hps, List.append_assoc], ?_, fun _ hl' => ?_⟩
    · rw [refusals_append]
      rw [BitVec.lt_def] at hlt
      split at hone <;> omega
    · have hv := bteStatus_iter (d := d) (st := st) (s := v) (hbv ▸ hl) (by rw [hbv, hcv, hm]; exact hlt) (hbte ▸ hl')
      rw [hbv, hcv, hm, ← hbte] at hv
      rw [refusals_append]
      exact ⟨by omega, hv.1⟩
  | exit st hp ho hst hprims hb' herr hfail =>
    have hlt := (hlive hb (by rw [hp]; rfl))
    have hone := refusals_singleton_le dev .start st none
    refine ⟨ps ++ [.sent .start st], by rw [hprims, hps, List.append_assoc], ?_, fun hb => by rw [hb'] at hb; cases hb⟩
    rw [refusals_append, PrimEvent.sent]
    rw [BitVec.lt_def] at hlt
    split at hone <;> omega

/-- The bound over every trace (R138). -/
theorem exec_refusals_le {s t : State} {i : Instr} {x : Xfer} (hr : Ready s) (hwf : s.cfg.wf = true) (hn : NoReset s)
    (hx : s.single? i = some x) (he : exec i s = .next t) :
    ∃ ps, t.env.prims = s.env.prims ++ ps ∧ refusals x.dev ps ≤ s.cfg.maxIter.toNat := by
  have hprims : ((s.commandStart (encodeByte i)).begun i).env.prims = s.env.prims := by cases i <;> rfl
  have hcfg : ((s.commandStart (encodeByte i)).begun i).cfg = s.cfg := by cases i <;> rfl
  have hrun : RefusalRun s.env.prims x.dev s.cfg.maxIter t := by
    refine exec_single_history hr hn hx he ?_ (fun u l h => ⟨h.cfg, h.history⟩)
      (fun u v hub hc hi h => h.step hub hc hi)
    exact ⟨congrArg Params.maxIter hcfg, [], by rw [List.append_nil]; exact hprims, Nat.zero_le _,
      fun _ _ => ⟨Nat.zero_le _, maxIter_pos hwf⟩⟩
  obtain ⟨_, ps, hps, hle, _⟩ := hrun
  exact ⟨ps, hps, hle⟩

/-! ### Below the bound -/

/-- What refused passes leave: `ITER` counted up, and their primitives in the history. -/
theorem refusedPasses_eq (s : State) (sts : List Byte) :
    ∃ bs ow, s.refusedPasses sts =
      { s with
        bte := { s.bte with bstat := bs, owned := ow, iter := s.bte.iter + BitVec.ofNat 8 sts.length }
        env := { s.env with prims := s.env.prims ++ busyPrims s.bte.xdev sts } } := by
  cases sts with
  | nil => exact ⟨s.bte.bstat, s.bte.owned, by simp [State.refusedPasses, busyPrims]⟩
  | cons st sts => exact ⟨stSlawNack, true, by simp [State.refusedPasses]⟩

theorem AtStart.refusedPasses {s : State} {kind : XKind} (h : AtStart s kind) (sts : List Byte) :
    AtStart (s.refusedPasses sts) kind := by
  obtain ⟨bs, ow, he⟩ := refusedPasses_eq s sts
  rw [he]
  exact ⟨h.busy, h.task, h.pstate, h.bidx, h.kind, h.aw⟩

/-- A transaction that has some selections refused and is then answered by a responsive bus: what its operation finds. -/
theorem run_startXfer_retried {s : State} {x : Xfer} {sts : List Byte} {st st2 : Byte} {ds : List Byte} (hb : s.busy = true)
    (ht : s.seq.task.transmitting = false) (ha : x.aw = 1 ∨ x.aw = 2) (hsts : ∀ b ∈ sts, isStart b = true)
    (hlen : sts.length < s.cfg.maxIter.toNat) (hs : isStart st = true) (hs2 : isStart st2 = true) (hd : x.data s ds)
    (rest : List Instant) :
    run (busyTrace sts ++ x.trace st st2 ds ++ rest) (s.startXfer x.kind x.dev x.aw x.off x.len) =
      run rest
        (finish .ok
          { s with
            dbuf := x.dbuf ds s.dbuf
            bte := s.bte.done x.kind x.dev x.aw x.off x.len (BitVec.ofNat 8 sts.length)
            env := { s.env with inputs := rest
                                prims := s.env.prims ++ (busyPrims x.dev sts ++ x.prims st st2 ds) } }) := by
  have hstart := atStart_startXfer hb ht ha x.kind x.dev x.off x.len
  have hagain := hstart.refusedPasses sts
  obtain ⟨bs, ow, he⟩ := refusedPasses_eq (s.startXfer x.kind x.dev x.aw x.off x.len) sts
  have hiter : (s.startXfer x.kind x.dev x.aw x.off x.len).bte.iter + BitVec.ofNat 8 sts.length =
      BitVec.ofNat 8 sts.length := BitVec.zero_add _
  rw [hiter] at he
  rw [List.append_assoc, run_busyTrace sts hsts hstart (by simpa using hlen)]
  rw [he] at hagain ⊢
  obtain ⟨kind, dev, aw, off, len⟩ := x
  obtain ⟨hl, hsent⟩ := hd
  cases kind with
  | rd =>
    refine (run_readTrace hagain hs hs2 ds hl rest).trans ?_
    simp only [State.readOver, State.withInputs, List.append_assoc, startXfer_bte, startXfer_env]
    rfl
  | wr =>
    have htrace : Xfer.trace ⟨.wr, dev, aw, off, len⟩ st st2 ds = writeTrace st aw len.toNat := by
      rw [← hl]; rfl
    obtain rfl := hsent rfl
    rw [htrace]
    refine (run_writeTrace hagain hs rest).trans ?_
    simp only [State.writeOver, State.withInputs, List.append_assoc, startXfer_bte, startXfer_env]
    rfl

/-- A transfer command below the bound (R138). -/
theorem exec_transfer_retried {s : State} {i : Instr} {x : Xfer} {sts : List Byte} {st st2 : Byte} {ds : List Byte}
    {rest : List Instant} (hr : Ready s) (hx : s.xfer? i = some x) (hsts : ∀ b ∈ sts, isStart b = true)
    (hlen : sts.length < s.cfg.maxIter.toNat) (hs : isStart st = true) (hs2 : isStart st2 = true) (hd : x.data s ds)
    (hin : s.env.inputs = busyTrace sts ++ x.trace st st2 ds ++ rest) :
    exec i s = .next
      { s.ended (encodeByte i) (s.bte.done x.kind x.dev x.aw x.off x.len (BitVec.ofNat 8 sts.length))
          (busyPrims x.dev sts ++ x.prims st st2 ds) rest with
        dbuf := x.dbuf ds s.dbuf } := by
  obtain ⟨hsingle, _, _, hbegun⟩ := xfer_single hx
  rw [exec_ready hr, accepted_single hsingle, hin, hbegun]
  refine congrArg _ ((run_startXfer_retried
    (s := { s.commandStart (encodeByte i) with seq := { s.seq with task := .transfer } })
    rfl rfl (single_aw hsingle) hsts hlen hs hs2 hd rest).trans ?_)
  rw [run_idle (by rfl), hr.ended_eq]
  rfl

/-! ### At the bound -/

/-- A select-NACK that reaches the bound (R137). -/
theorem takeStatus_slawNack_last {s : State} (h : s.bte.pstate = .slaw) {p : Prim} {d : Byte} (hd : p.returns d = none)
    (hi : s.bte.iter + 1 = s.cfg.maxIter) :
    takeStatus p stSlawNack d s =
      s.went (.sent p stSlawNack) (Bte.aborting { s.bte with iter := s.cfg.maxIter } stSlawNack .retry) := by
  have hv : s.cfg.maxIter ≤ s.bte.iter + 1#8 := by rw [← hi]; exact BitVec.le_refl _
  simp [takeStatus, bteStatus, verdict, State.observe, State.abort, h, hd, PrimEvent.sent, State.went, hv, Bte.aborting]
  exact hi

theorem busyTrace_append (sts sts' : List Byte) : busyTrace (sts ++ sts') = busyTrace sts ++ busyTrace sts' := by
  induction sts with
  | nil => rfl
  | cons st sts ih => simp [busyTrace, ih]

theorem busyPrims_append (dev : DevAddr) (sts sts' : List Byte) :
    busyPrims dev (sts ++ sts') = busyPrims dev sts ++ busyPrims dev sts' := by
  induction sts with
  | nil => rfl
  | cons st sts ih => simp [busyPrims, ih]

/-- The instant of a STOP, whatever the bus answers in it (R73, R150). -/
theorem busyInstant_stop_of_quiet {j : Instant} {s : State} (hr : s.request = some .stop)
    (ht : s.seq.task.transmitting = false) (hreset : j.reset = false) (hhost : j.host = none) (htick : j.tick = false) :
    busyInstant j s = takeStop s := by
  rw [busyInstant_noReset hreset, Instant.onHost, hhost, htick, latchTick_false, seqStep_request ht, hr]

/-- A transaction whose selection is refused as often as the bound allows: what its operation finds (R137, R151). -/
theorem run_startXfer_exhausted {s : State} {x : Xfer} {sts : List Byte} {j : Instant} (hb : s.busy = true)
    (ht : s.seq.task.transmitting = false) (hwf : s.cfg.wf = true) (ha : x.aw = 1 ∨ x.aw = 2)
    (hsts : ∀ b ∈ sts, isStart b = true) (hlen : sts.length = s.cfg.maxIter.toNat) (hreset : j.reset = false)
    (hhost : j.host = none) (htick : j.tick = false) (rest : List Instant) :
    run (busyTrace sts ++ j :: rest) (s.startXfer x.kind x.dev x.aw x.off x.len) =
      run rest
        (finish .failed
          { s with
            err := 4
            bte := x.exhausted s.cfg.maxIter
            env := { s.env with inputs := rest, prims := s.env.prims ++ (busyPrims x.dev sts ++ [.stopped]) } }) := by
  have hpos : 0 < s.cfg.maxIter.toNat := maxIter_pos hwf
  obtain ⟨init, last, rfl⟩ : ∃ init last, sts = init ++ [last] :=
    ⟨sts.dropLast, sts.getLast (by rintro rfl; simp at hlen; omega), (List.dropLast_append_getLast _).symm⟩
  rw [List.length_append, List.length_singleton] at hlen
  have hstart := atStart_startXfer hb ht ha x.kind x.dev x.off x.len
  have hiter : (0 : Byte) + BitVec.ofNat 8 init.length + 1 = s.cfg.maxIter := by
    rw [← BitVec.toNat_inj]
    have := s.cfg.maxIter.isLt
    simp
    omega
  obtain ⟨bs, ow, he⟩ := refusedPasses_eq (s.startXfer x.kind x.dev x.aw x.off x.len) init
  have hlast : isStart last = true := hsts last (by simp)
  rw [busyTrace_append, List.append_assoc,
    run_busyTrace init (fun b hm => hsts b (by simp [hm])) hstart (by simp; omega), he]
  rw [busyTrace, List.cons_append, List.cons_append, busyTrace, List.nil_append,
    run_went (by exact hb) (by exact ht) (p := .start) rfl nofun (takeStatus_start rfl hlast 0),
    run_went (by exact hb) (by exact ht) (p := .send (x.dev ++ 0#1)) rfl nofun
      (takeStatus_slawNack_last rfl rfl (by exact hiter)),
    run_cons (by exact hb), busyInstant_stop_of_quiet rfl (by exact ht) hreset hhost htick]
  simp [takeStop, bteStop, Bte.aborting, State.went, State.withInputs, State.logPrim, State.raise, PrimEvent.stopped,
    Xfer.exhausted, busyPrims_append, busyPrims]
  rfl

/-- A transfer command at the bound (R138). -/
theorem exec_transfer_exhausted {s : State} {i : Instr} {x : Xfer} {sts : List Byte} {j : Instant} {rest : List Instant}
    (hr : Ready s) (hwf : s.cfg.wf = true) (hx : s.xfer? i = some x) (hsts : ∀ b ∈ sts, isStart b = true)
    (hlen : sts.length = s.cfg.maxIter.toNat) (hreset : j.reset = false) (hhost : j.host = none) (htick : j.tick = false)
    (hin : s.env.inputs = busyTrace sts ++ j :: rest) :
    exec i s = .next
      (s.failed (encodeByte i) 4 (x.exhausted s.cfg.maxIter) (busyPrims x.dev sts ++ [.stopped]) rest) := by
  obtain ⟨hsingle, _, _, hbegun⟩ := xfer_single hx
  rw [exec_ready hr, accepted_single hsingle, hin, hbegun]
  refine congrArg _ ((run_startXfer_exhausted
    (s := { s.commandStart (encodeByte i) with seq := { s.seq with task := .transfer } })
    rfl rfl hwf (single_aw hsingle) hsts hlen hreset hhost htick rest).trans ?_)
  rw [run_idle (by rfl), hr.failed_eq]
  rfl

/-- Settles O13: the bound by induction over the run; the passes below the bound, and the one that reaches it. -/
theorem retryBound : Obligations.RetryBound := by
  refine ⟨fun s i x hr hwf hx => ⟨fun hn => ?_, fun sts st st2 ds rest hsts hlen hs hs2 hd hin => ?_,
    fun sts j rest hsts hlen hreset hhost htick hin => ?_⟩, fun s p d rest h hp => ⟨fun hi hin => ?_, fun hi hin => ?_⟩⟩
  · obtain ⟨ps, hps, hle⟩ := exec_refusals_le hr hwf hn (xfer_single hx).1 (exec_ready hr)
    exact ⟨_, ps, exec_ready hr, hps, hle⟩
  · exact exec_transfer_retried hr hx hsts hlen hs hs2 hd hin
  · exact exec_transfer_exhausted hr hwf hx hsts hlen hreset hhost htick hin
  all_goals
    have hsend : p.returns d = none := by
      have hreq := h.request
      rw [State.request, hp] at hreq
      cases hreq
      rfl
  · rw [step_answer h hin, takeStatus_slawNack (s := s.withInputs rest) hp p d hsend hi]
    rfl
  · obtain ⟨t, u, hstep, hreq, _, hnext, hbroke⟩ := steps_abort h hin _ { s.bte with iter := s.cfg.maxIter } .retry
      fun l => takeStatus_slawNack_last (s := s.withInputs l) hp hsend hi
    exact ⟨t, u, hstep, hreq, hnext, hbroke⟩

end Sys2Proof.Machine
end

section
/-! A pass whose time read fails (R222): the pass and a CLKREAD of the time record, answered alike, run in lockstep, since
the engine looks at nothing in which they differ. -/

namespace Sys2Proof.Machine

/-! ### The engine in another block -/

/-- The block `o` with all that the engine of `s` looks at and writes. -/
def State.beside (s o : State) : State :=
  { o with cfg := s.cfg, err := s.err, dbuf := s.dbuf, bte := s.bte,
           env := { o.env with prims := s.env.prims, resets := s.env.resets } }

theorem beside_enter (p : PState) (s o : State) : (s.beside o).enter p = (s.enter p).beside o := by
  rcases enter_pstate p s with ⟨hp, hend, he⟩ | ⟨hdata, he⟩
  · rw [he, State.enter, if_pos ⟨hp, (Bte.atEnd_iff _).2 hend⟩]
    rfl
  · rw [he, State.enter, if_neg fun h => hdata h.1 ((Bte.atEnd_iff _).1 h.2)]
    rfl

theorem beside_observe (st d : Byte) (s o : State) : (s.beside o).observe st d = (s.observe st d).beside o := by
  cases hp : s.bte.pstate <;> simp only [State.observe, State.beside, hp]
  case rdata => split <;> rfl

theorem beside_bteStatus (st d : Byte) (s o : State) :
    bteStatus st d (s.beside o) = ((bteStatus st d s).1.beside o, (bteStatus st d s).2) := by
  have hv : verdict (s.beside o).cfg (s.beside o).bte st = verdict s.cfg s.bte st := rfl
  have ho : (s.beside o).bte.owned = s.bte.owned := rfl
  unfold bteStatus
  rw [hv, ho, beside_observe]
  split
  · rw [beside_enter]
  · rfl
  · rfl
  · split <;> rfl

theorem beside_bteStop (s o : State) : bteStop (s.beside o) = ((bteStop s).1.beside o, (bteStop s).2) := by
  rcases bteStop_cases s with ⟨hp, he⟩ | ⟨hp, he⟩
  · rcases bteStop_cases (s.beside o) with ⟨_, he'⟩ | ⟨hn, _⟩
    · rw [he, he']; rfl
    · exact absurd hp hn
  · rcases bteStop_cases (s.beside o) with ⟨hs, _⟩ | ⟨_, he'⟩
    · exact absurd hs hp
    · rw [he, he']; rfl

/-! ### Two blocks in lockstep -/

/-- Two blocks with the same request outstanding take the same kind of step, whatever relation they are in. -/
theorem seqStep_lockstep {R : State → State → Prop} {a b : State} (i : Instant) (ha : a.seq.task.transmitting = false)
    (hb : b.seq.task.transmitting = false) (hreq : b.request = a.request) (hwait : R a b)
    (henter : a.request = none → R (a.enter a.bte.pstate) (b.enter b.bte.pstate))
    (hstop : R (takeStop a) (takeStop b))
    (hstatus : ∀ p st d, a.request = some p → p ≠ .stop → R (takeStatus p st d a) (takeStatus p st d b)) :
    R (seqStep i a) (seqStep i b) := by
  rw [seqStep_request ha, seqStep_request hb, hreq]
  cases hr : a.request with
  | none => exact henter hr
  | some p =>
    cases p with
    | stop => exact hstop
    | start | send | recvAck | recvNack =>
      cases i.bus with
      | none => exact hwait
      | some w => exact hstatus _ _ _ hr nofun

/-- The pass started by `d` in `s`, where a CLKREAD has come to `a`: it differs in the command, its operands, its latches,
`TICKP`, and what the host has read. -/
def DueBy.pass (d : DueBy) (s a : State) (tickp : Bool) (reads : List (HostAddr × Byte)) : State :=
  { a with cmd := d.cmd s, src := d.src, ops := s.ops, tickp := tickp
           seq := { s.seq with task := if a.busy then .dueTime else .idle, mode := d.mode }
           env := { a.env with reads := reads } }

/-- CLKREAD in `a` and the pass in `b`, the one command under way while the other is. -/
structure Alongside (d : DueBy) (s a b : State) : Prop where
  pass : ∃ tickp reads, b = d.pass s a tickp reads
  task : a.busy = true → a.seq.task = .transfer

/-- They stay in lockstep, unless the CLKREAD is over and has succeeded. -/
def Follows (d : DueBy) (s a b : State) : Prop := Alongside d s a b ∨ (a.busy = false ∧ a.fail = false)

section
variable {d : DueBy} {s : State}

theorem pass_seq {a : State} (hb : a.busy = true) (tickp : Bool) (reads : List (HostAddr × Byte)) :
    (d.pass s a tickp reads).seq.task = .dueTime := by
  simp [DueBy.pass, hb]

/-- The engine's part of the two blocks is the same. -/
theorem EngineStep.beside_pass {a u : State} (h : EngineStep a u) (tickp : Bool) (reads : List (HostAddr × Byte)) :
    u.beside (d.pass s a tickp reads) = d.pass s u tickp reads := by
  rw [h.frame]
  rfl

/-- The transaction has failed: both operations complete with the failure. -/
theorem finish_pass {u : State} (hb : u.busy = true) (ht : u.seq.task = .transfer) (tickp : Bool)
    (reads : List (HostAddr × Byte)) (r : XferResult) :
    Follows d s (finish r u) (finish r (d.pass s u tickp reads)) := by
  rw [finish_transfer ht]
  cases r with
  | ok => exact .inr ⟨rfl, rfl⟩
  | failed =>
    refine .inl ⟨⟨false, reads, ?_⟩, nofun⟩
    rw [finish, pass_seq hb]
    rfl

theorem takeStop_alongside {a b : State} (hb : a.busy = true) (h : Alongside d s a b) :
    Follows d s (takeStop a) (takeStop b) := by
  obtain ⟨⟨tickp, reads, rfl⟩, htask⟩ := h
  have he := engineStep_bteStop (a.logPrim ⟨.stop, none, none⟩)
  have hpass : bteStop ((d.pass s a tickp reads).logPrim ⟨.stop, none, none⟩) =
      (d.pass s (bteStop (a.logPrim ⟨.stop, none, none⟩)).1 tickp reads, (bteStop (a.logPrim ⟨.stop, none, none⟩)).2) := by
    rw [← he.beside_pass]
    exact beside_bteStop (a.logPrim ⟨.stop, none, none⟩) (d.pass s (a.logPrim ⟨.stop, none, none⟩) tickp reads)
  rw [takeStop, takeStop, hpass]
  exact finish_pass (he.busy.trans hb) ((congrArg Seq.task he.seq).trans (htask hb)) tickp reads _

theorem takeStatus_alongside {a b : State} (hb : a.busy = true) (h : Alongside d s a b) {p : Prim}
    (hr : a.request = some p) (hp : p ≠ .stop) (st e : Byte) :
    Follows d s (takeStatus p st e a) (takeStatus p st e b) := by
  obtain ⟨⟨tickp, reads, rfl⟩, htask⟩ := h
  obtain ⟨hl, hd⟩ := live_of_request hr hp
  have he := engineStep_bteStatus st e (s := a.logPrim ⟨p, some st, p.returns e⟩) hl hd
  have hpass : bteStatus st e ((d.pass s a tickp reads).logPrim ⟨p, some st, p.returns e⟩) =
      (d.pass s (bteStatus st e (a.logPrim ⟨p, some st, p.returns e⟩)).1 tickp reads,
        (bteStatus st e (a.logPrim ⟨p, some st, p.returns e⟩)).2) := by
    rw [← he.beside_pass]
    exact beside_bteStatus st e (a.logPrim ⟨p, some st, p.returns e⟩)
      (d.pass s (a.logPrim ⟨p, some st, p.returns e⟩) tickp reads)
  have hbusy := he.busy.trans hb
  have htask' := (congrArg Seq.task he.seq).trans (htask hb)
  rcases hres : bteStatus st e (a.logPrim ⟨p, some st, p.returns e⟩) with ⟨u, r⟩
  rw [hres] at hpass hbusy htask'
  cases r with
  | none =>
    simp only [takeStatus, hres, hpass]
    exact .inl ⟨⟨tickp, reads, rfl⟩, fun _ => htask'⟩
  | some r =>
    simp only [takeStatus, hres, hpass]
    exact finish_pass hbusy htask' tickp reads r

theorem enter_alongside {a b : State} (hb : a.busy = true) (h : Alongside d s a b) (hr : a.request = none) :
    Alongside d s (a.enter a.bte.pstate) (b.enter b.bte.pstate) := by
  obtain ⟨⟨tickp, reads, rfl⟩, htask⟩ := h
  have he := engineStep_enter hr
  refine ⟨⟨tickp, reads, ?_⟩, fun _ => (congrArg Seq.task he.seq).trans (htask hb)⟩
  rw [← he.beside_pass]
  exact beside_enter a.bte.pstate a (d.pass s a tickp reads)

theorem seqStep_alongside (i : Instant) {a b : State} (hb : a.busy = true) (h : Alongside d s a b) :
    Follows d s (seqStep i a) (seqStep i b) := by
  have hreq : b.request = a.request := by
    obtain ⟨⟨tickp, reads, rfl⟩, _⟩ := h
    rfl
  have htask : b.seq.task = .dueTime := by
    obtain ⟨⟨tickp, reads, rfl⟩, _⟩ := h
    exact pass_seq hb tickp reads
  exact seqStep_lockstep i (by rw [h.task hb]; rfl) (by rw [htask]; rfl) hreq (.inl h)
    (fun hr => .inl (enter_alongside hb h hr)) (takeStop_alongside hb h)
    (fun _ st e hr hp => takeStatus_alongside hb h hr hp st e)

/-- What the host reads may differ; what it writes has the same effect. -/
theorem onHost_alongside (i : Instant) {a b : State} (h : Alongside d s a b) :
    Alongside d s (i.onHost State.busyHost a) (i.onHost State.busyHost b) := by
  obtain ⟨⟨tickp, reads, rfl⟩, htask⟩ := h
  obtain ⟨hseq, _, _, hbusy, _⟩ := onHost_busyHost_seq i a
  refine ⟨?_, fun hb => (congrArg Seq.task hseq).trans (htask (hbusy.symm.trans hb))⟩
  unfold Instant.onHost
  cases i.host with
  | none => exact ⟨tickp, reads, rfl⟩
  | some x =>
    cases x with
    | read x => simp only [State.busyHost]; split <;> exact ⟨tickp, _, rfl⟩
    | write x v => simp only [State.busyHost]; split <;> exact ⟨tickp, reads, rfl⟩

theorem busyInstant_alongside {i : Instant} (hr : i.reset = false) {a b : State} (hb : a.busy = true)
    (h : Alongside d s a b) : Follows d s (busyInstant i a) (busyInstant i b) := by
  have hbusy := (onHost_busyHost_seq i a).2.2.2.1
  rw [busyInstant_noReset hr, busyInstant_noReset hr]
  rcases seqStep_alongside i (hbusy.trans hb) (onHost_alongside i h) with ⟨⟨tickp, reads, he⟩, htask⟩ | hover
  · rw [he]
    exact .inl ⟨⟨tickp || i.tick, reads, rfl⟩, htask⟩
  · exact .inr hover

theorem withInputs_alongside {a b : State} (h : Alongside d s a b) (l : List Instant) :
    Alongside d s (a.withInputs l) (b.withInputs l) := by
  obtain ⟨⟨tickp, reads, rfl⟩, htask⟩ := h
  exact ⟨⟨tickp, reads, rfl⟩, htask⟩

theorem run_alongside {l : List Instant} (hl : ∀ i ∈ l, i.reset = false) {a b : State} (h : Alongside d s a b) :
    Follows d s (run l a) (run l b) := by
  induction l generalizing a b with
  | nil =>
    have hbusy : b.busy = a.busy := by
      obtain ⟨⟨tickp, reads, rfl⟩, _⟩ := h
      rfl
    rw [run, run, hbusy]
    split
    · next hb => exact busyInstant_alongside rfl hb (withInputs_alongside h [])
    · exact .inl (withInputs_alongside h [])
  | cons i rest ih =>
    have hbusy : b.busy = a.busy := by
      obtain ⟨⟨tickp, reads, rfl⟩, _⟩ := h
      rfl
    rw [run, run, hbusy]
    split
    · next hb =>
      rcases busyInstant_alongside (a := a.withInputs rest) (hl i List.mem_cons_self) hb (withInputs_alongside h rest) with hgo | ⟨hover, hok⟩
      · exact ih (fun j hj => hl j (List.mem_cons_of_mem _ hj)) hgo
      · rw [run_idle hover]
        exact .inr ⟨hover, hok⟩
    · exact .inl (withInputs_alongside h _)

end

/-! ### The failing time read -/

/-- The pass does what a failing CLKREAD of the time record on the same answers does, and its own completion on top. -/
theorem dueBy_run_of_fails {d : DueBy} {s u : State} (hr : Ready s) (hm : d.May s)
    (h : Fails .clkread s 0 7 s.env.inputs u) :
    ∃ t, d.run s = .next t ∧ (NoTick s → t.tickp = false) ∧ ∃ tickp reads, t = d.pass s u tickp reads := by
  have hready : Ready (s.withTransfer 0 7 s.env.inputs) := ⟨hr.busy, hr.halt, hr.pstate, hr.task⟩
  have hnext := h.next
  rw [exec_ready hready] at hnext
  have hu := Host.Outcome.next.inj hnext
  have hstart : Alongside d s ((s.withTransfer 0 7 s.env.inputs).accepted .clkread) (d.started s) :=
    ⟨⟨s.tickp, s.env.reads, by rw [dueBy_started]; rfl⟩, fun _ => rfl⟩
  rcases run_alongside (l := s.env.inputs) h.noReset hstart with ⟨⟨tickp, reads, he⟩, _⟩ | ⟨_, hok⟩
  · refine ⟨_, dueBy_run hr hm, fun hnt => ?_, tickp, reads, he.trans (by rw [← hu]; rfl)⟩
    have hbusy : (run s.env.inputs (d.started s)).busy = false := by
      rw [he]
      exact (congrArg State.busy hu).trans h.idle
    rw [run_tickp_due (fun i hi => ⟨h.noReset i hi, hnt i hi⟩) (by rw [dueBy_started]; rfl) (by rw [dueBy_started]),
      hbusy]
    rfl
  · have hfail := h.fail
    rw [← hu] at hfail
    cases hfail.symm.trans hok

/-- Settles O34: the pass in lockstep with a failing CLKREAD, and the failure at the first START in full. -/
theorem timeReadFailure : Obligations.TimeReadFailure := by
  refine fun s d hr hm => ⟨fun u h => ?_, fun st b tick rest hn hin => ?_⟩
  · obtain ⟨t, hrun, htick, tickp, reads, rfl⟩ := dueBy_run_of_fails hr hm h
    have hready : Ready (s.withTransfer 0 7 s.env.inputs) := ⟨hr.busy, hr.halt, hr.pstate, hr.task⟩
    obtain ⟨_, _, _, _, _, _, hcursor, hdt, _, _, _, _, htxs, _⟩ := transferFrame _ u .clkread _ hready h.noReset rfl h.next
    have hseq : { s.seq with task := .idle, mode := d.mode } = { s.seq with mode := d.mode } := by rw [← hr.task]
    obtain ⟨hok, _⟩ | ⟨_, _, hlo, hhi⟩ := resultTriple _ u .clkread _ hready h.noReset rfl h.next h.idle
    · rw [h.fail] at hok
      cases hok
    · refine ⟨_, hrun, h.idle, h.fail, hlo, hhi, hcursor, hdt, htxs, htick, ?_⟩
      simp only [DueBy.pass, h.idle, Bool.false_eq_true, if_false, hseq]
  · rw [dueBy_run hr hm, hin, dueBy_started]
    refine congrArg _ ((run_startXfer_refused ⟨.rd, s.cfg.clockDev, 1, 0, 7⟩
      (s := { s with cmd := d.cmd s, busy := true, src := d.src, err := 0
                     seq := { s.seq with task := .dueTime, mode := d.mode } }) rfl rfl hn b tick rest).trans ?_)
    rw [run_idle (by rfl), hr.failed_eq]
    simp [finish, finishDueTime, State.completePass, State.complete, State.latchTick, State.withInputs, Bte.refused, hr.task]

end Sys2Proof.Machine
end

section
/-! The block in closed loop with an environment that answers as in R93: a transfer command does there what its run does on
the listed answers. The history of the run says which primitive each answer was for. -/

namespace Sys2Proof.Machine

/-! ### The environment's answers to a list of primitives -/

/-- The environment answers the primitives of the list with the statuses and the bytes of the list. -/
inductive Answers : RefEnv → List PrimEvent → RefEnv → Prop where
  | nil (e : RefEnv) : Answers e [] e
  | cons {e e' e'' : RefEnv} {p : Prim} {st d : Byte} {ps : List PrimEvent} (head : e.answer p = ((st, d), e'))
      (tail : Answers e' ps e'') : Answers e (⟨p, some st, p.returns d⟩ :: ps) e''

theorem Answers.append {e e' e'' : RefEnv} {ps qs : List PrimEvent} (h : Answers e ps e') (h' : Answers e' qs e'') :
    Answers e (ps ++ qs) e'' := by
  induction h with
  | nil => exact h'
  | cons head _ ih => exact .cons head (ih h')

/-- The instant in which a primitive of the history completed, nothing else happening in it. -/
def PrimEvent.instant (p : PrimEvent) : Instant :=
  match p.status with
  | some st => .answer st (p.data.getD 0)
  | none => Instant.quiet

theorem map_instant_busyPrims (dev : DevAddr) (sts : List Byte) :
    (busyPrims dev sts).map PrimEvent.instant = busyTrace sts := by
  induction sts with
  | nil => rfl
  | cons st sts ih => simp only [busyPrims, busyTrace, List.map_cons, ih]; rfl

theorem map_instant_dataPrims (ds : List Byte) : (dataPrims ds).map PrimEvent.instant = dataAnswers ds := by
  induction ds with
  | nil => rfl
  | cons b ds ih =>
    cases ds with
    | nil => rfl
    | cons c ds => rw [dataPrims, List.map_cons, ih]; rfl

theorem map_instant_selectPrims (st : Byte) (dev : DevAddr) (aw : BitVec 2) (off : Half) :
    (selectPrims st dev aw off).map PrimEvent.instant = [.answer st 0, .answer stSlawAck 0] ++ addrAnswers aw := by
  unfold selectPrims addrAnswers
  split <;> rfl

/-- The trace of a transaction that succeeds in its first pass is that of its primitives. -/
theorem Xfer.map_instant_prims (x : Xfer) (st st2 : Byte) (ds : List Byte) :
    (x.prims st st2 ds).map PrimEvent.instant = x.trace st st2 ds := by
  obtain ⟨kind, dev, aw, off, len⟩ := x
  cases kind with
  | rd =>
    simp only [Xfer.prims, Xfer.trace, readPrims, readTrace, List.map_append, map_instant_selectPrims,
      map_instant_dataPrims]
    rfl
  | wr =>
    simp only [Xfer.prims, Xfer.trace, writePrims, writeTrace, List.map_append, map_instant_selectPrims, List.map_map]
    congr 2
    exact (List.map_const : ds.map (Function.const Byte (Instant.answer stTxAck 0)) = _)

/-! ### A primitive of a transfer command -/

theorem takeStatus_prims (p : Prim) (st d : Byte) (s : State) :
    (takeStatus p st d s).env.prims = s.env.prims ++ [⟨p, some st, p.returns d⟩] := by
  have henv := bteStatus_env st d (s.logPrim ⟨p, some st, p.returns d⟩)
  cases hres : (bteStatus st d (s.logPrim ⟨p, some st, p.returns d⟩)).2 with
  | none => rw [takeStatus_none hres, henv]; rfl
  | some r => rw [takeStatus_some hres, (finish_bus r _).1, henv]; rfl

theorem takeStop_prims (s : State) : (takeStop s).env.prims = s.env.prims ++ [.stopped] := by
  rw [takeStop, (finish_bus _ _).1, bteStop_env]
  rfl

/-- The data byte of an answer matters to a receive only (R72). -/
theorem takeStatus_data {s : State} {p : Prim} (hr : s.request = some p) (st : Byte) {d d' : Byte}
    (h : p.returns d = p.returns d') : takeStatus p st d s = takeStatus p st d' s := by
  by_cases hp : s.bte.pstate = .rdata
  · have hd : d = d' := by
      rw [State.request, hp] at hr
      dsimp only at hr
      split_ifs at hr <;> cases hr <;> exact Option.some.inj h
    rw [hd]
  · have hob : ∀ u : State, u.bte.pstate = s.bte.pstate → u.observe st d = u.observe st d' := by
      intro u hu
      cases hps : u.bte.pstate with
      | rdata => exact absurd (hu.symm.trans hps) hp
      | _ => simp only [State.observe, hps]
    simp only [takeStatus, bteStatus, h, hob (s.logPrim ⟨p, some st, p.returns d'⟩) rfl]

/-- A transfer command reads its answers from the instant, not from the listed ones. -/
theorem takeStatus_withInputs {s : State} (ht : s.seq.task = .transfer) {p : Prim}
    (hr : s.request = some p) (hp : p ≠ .stop) (st d : Byte) (l : List Instant) :
    takeStatus p st d (s.withInputs l) = (takeStatus p st d s).withInputs l := by
  obtain ⟨hl, hd⟩ := live_of_request hr hp
  have he := engineStep_bteStatus st d (s := s.logPrim ⟨p, some st, p.returns d⟩) hl hd
  have hbeside : bteStatus st d ((s.withInputs l).logPrim ⟨p, some st, p.returns d⟩) =
      ((bteStatus st d (s.logPrim ⟨p, some st, p.returns d⟩)).1.withInputs l,
        (bteStatus st d (s.logPrim ⟨p, some st, p.returns d⟩)).2) := by
    refine (beside_bteStatus st d (s.logPrim ⟨p, some st, p.returns d⟩)
      ((s.logPrim ⟨p, some st, p.returns d⟩).withInputs l)).trans ?_
    rw [he.frame]
    rfl
  cases hres : (bteStatus st d (s.logPrim ⟨p, some st, p.returns d⟩)).2 with
  | none => rw [takeStatus_none hres, takeStatus_none (by rw [hbeside, hres]), hbeside]
  | some r =>
    have htask := (congrArg Seq.task he.seq).trans ht
    rw [takeStatus_some hres, takeStatus_some (r := r) (by rw [hbeside, hres]), hbeside, finish_transfer htask,
      finish_transfer (by exact htask)]
    rfl

theorem takeStop_withInputs {s : State} (ht : s.seq.task = .transfer) (l : List Instant) :
    takeStop (s.withInputs l) = (takeStop s).withInputs l := by
  have he := engineStep_bteStop (s.logPrim ⟨.stop, none, none⟩)
  have hbeside : bteStop ((s.withInputs l).logPrim ⟨.stop, none, none⟩) =
      ((bteStop (s.logPrim ⟨.stop, none, none⟩)).1.withInputs l, (bteStop (s.logPrim ⟨.stop, none, none⟩)).2) := by
    refine (beside_bteStop (s.logPrim ⟨.stop, none, none⟩) ((s.logPrim ⟨.stop, none, none⟩).withInputs l)).trans ?_
    rw [he.frame]
    rfl
  have htask := (congrArg Seq.task he.seq).trans ht
  rw [takeStop, takeStop, hbeside, finish_transfer htask, finish_transfer (by exact htask)]
  rfl

/-- A transfer command under way, its engine in a state that has a request. -/
structure Transacting (s : State) : Prop where
  busy : s.busy = true
  task : s.seq.task = .transfer
  engine : s.bte.Running
  fits : s.bte.Fits

theorem Transacting.request {s : State} (h : Transacting s) : ∃ p, s.request = some p := by
  have hlt : s.bte.pstate = .rdata ∨ s.bte.pstate = .wdata → s.bte.bidx.toNat < s.bte.xlen.toNat := fun hp => by
    have := h.fits.data hp
    bv_omega
  cases hps : s.bte.pstate with
  | idle => exact absurd hps h.engine.pstate
  | rdata =>
    rw [request_rdata hps (hlt (.inl hps))]
    split
    · exact ⟨_, rfl⟩
    · exact ⟨_, rfl⟩
  | wdata => exact ⟨_, request_wdata hps (hlt (.inr hps))⟩
  | _ =>
    rw [State.request, hps]
    exact ⟨_, rfl⟩

theorem Transacting.takeStatus {s : State} (h : Transacting s) {p : Prim} (hr : s.request = some p) (hp : p ≠ .stop)
    (st d : Byte) (hb : (takeStatus p st d s).busy = true) : Transacting (takeStatus p st d s) := by
  obtain ⟨hl, hd⟩ := live_of_request hr hp
  have he := engineStep_bteStatus st d (s := s.logPrim ⟨p, some st, p.returns d⟩) hl hd
  have htask := (congrArg Seq.task he.seq).trans h.task
  rcases bteStatus_result st d (s := s.logPrim ⟨p, some st, p.returns d⟩) hl with ⟨hres, _, hrun⟩ | ⟨hres, _⟩
  · rw [takeStatus_none hres]
    exact ⟨he.busy.trans h.busy, htask, hrun, he.fits h.fits⟩
  · rw [takeStatus_some hres, finish_transfer htask] at hb
    cases hb

/-- The history only grows. -/
theorem Transacting.run_prims {s : State} (h : Transacting s) {l : List Instant} (hl : ∀ i ∈ l, i.reset = false) :
    ∃ more, (run l s).env.prims = s.env.prims ++ more := by
  have hstart : SingleRun s.bte.xlen s s :=
    ⟨fun _ => .inl h.task, fun _ => ⟨h.fits, BitVec.le_refl _⟩, fun _ _ => rfl, fun hw => ⟨rfl, fun _ => hw⟩⟩
  refine (run_invariant (P := fun t => SingleRun s.bte.xlen s t ∧ ∃ more, t.env.prims = s.env.prims ++ more)
    (Q := fun i => i.reset = false) rfl ?_ ?_ l hl s ⟨hstart, [], (List.append_nil _).symm⟩).2
  · exact fun t l ht => ⟨ht.1.congr rfl rfl rfl rfl rfl, ht.2⟩
  · intro i t hi hb ⟨ht, more, hmore⟩
    refine ⟨busyInstant_singleRun hi hb ht, ?_⟩
    cases busyInstant_issued hi hb (ht.task hb) with
    | nothing hp => exact ⟨more, hp.trans hmore⟩
    | stop hp => exact ⟨_, by rw [hp, hmore, List.append_assoc]⟩
    | status p st d v _ _ hp => exact ⟨_, by rw [hp, hmore, List.append_assoc]⟩
    | exit st _ _ _ hp => exact ⟨_, by rw [hp, hmore, List.append_assoc]⟩

/-! ### The closed loop -/

theorem closedStep_answer {e e' : RefEnv} {s : State} {p : Prim} {st d : Byte} (hr : s.request = some p) (hp : p ≠ .stop)
    (ht : s.seq.task.transmitting = false) (h : e.answer p = ((st, d), e')) :
    closedStep (e, s) = (e', takeStatus p st d s) := by
  have hinst : e.instant s = ({ bus := some (st, d), txAck := s.tx.req }, e') := by
    cases p <;> simp only [RefEnv.instant, hr, h, ne_eq, not_true_eq_false] at hp ⊢
  rw [closedStep, hinst]
  refine Prod.ext rfl ?_
  dsimp only
  rw [busyInstant_noReset rfl, Instant.onHost, latchTick_false, seqStep_request ht, hr]
  cases p with
  | stop => exact absurd rfl hp
  | _ => rfl

theorem closedStep_stop {s : State} (hr : s.request = some .stop) (ht : s.seq.task.transmitting = false) (e : RefEnv) :
    closedStep (e, s) = ((e.answer .stop).2, takeStop s) := by
  have hinst : e.instant s = ({ txAck := s.tx.req }, (e.answer .stop).2) := by simp only [RefEnv.instant, hr]
  rw [closedStep, hinst]
  exact Prod.ext rfl (busyInstant_stop_of_quiet (j := { txAck := s.tx.req }) hr ht rfl rfl rfl)

theorem drive_succ {c : RefEnv × State} (h : c.2.busy = true) (n : Nat) : drive (n + 1) c = drive n (closedStep c) := by
  rw [drive, if_pos h]

theorem reset_instant (p : PrimEvent) : p.instant.reset = false := by
  unfold PrimEvent.instant; split <;> rfl

theorem reset_map_instant {ps : List PrimEvent} : ∀ i ∈ ps.map PrimEvent.instant, i.reset = false := by
  intro i hi
  obtain ⟨p, _, rfl⟩ := List.mem_map.1 hi
  exact reset_instant p

theorem takeStop_busy {s : State} (ht : s.seq.task = .transfer) : (takeStop s).busy = false := by
  have he := engineStep_bteStop (s.logPrim ⟨.stop, none, none⟩)
  rw [takeStop, finish_transfer ((congrArg Seq.task he.seq).trans ht)]
  rfl

/-- The last instant of a history: the STOP is due, and the closed loop issues it too. -/
theorem drive_stop {e : RefEnv} {s : State} (h : Transacting s)
    (hrun : (run [Instant.quiet] s).env.prims = s.env.prims ++ [PrimEvent.stopped]) :
    drive 1 (e, s.withInputs []) = ((e.answer .stop).2, run [Instant.quiet] s) := by
  obtain ⟨q, hreq⟩ := h.request
  have ht : s.seq.task.transmitting = false := by rw [h.task]; rfl
  by_cases hq : q = .stop
  · subst hq
    have hover : (takeStop (s.withInputs [])).busy = false := takeStop_busy h.task
    rw [drive_succ (by exact h.busy), closedStep_stop (by exact hreq) (by exact ht), run_cons h.busy,
      busyInstant_stop (by exact hreq) (by exact ht), run_idle hover, takeStop_withInputs h.task]
    rfl
  · have hwait : Waiting (s.withInputs []) := ⟨h.busy, .inr ⟨q, hreq, hq⟩⟩
    rw [run_cons h.busy, busyInstant_quiet hwait, run_nil_waiting hwait] at hrun
    simp at hrun

/-- One answer of a history: it is that of the outstanding primitive, and the run goes on with the rest. -/
theorem run_answered {s : State} (h : Transacting s) {p : Prim} {st d : Byte} {ps : List PrimEvent}
    (hrun : (run ((⟨p, some st, p.returns d⟩ :: (ps ++ [PrimEvent.stopped])).map PrimEvent.instant) s).env.prims =
      s.env.prims ++ ⟨p, some st, p.returns d⟩ :: (ps ++ [PrimEvent.stopped])) :
    s.request = some p ∧ p ≠ .stop ∧ Transacting (takeStatus p st d s) ∧
      run ((⟨p, some st, p.returns d⟩ :: (ps ++ [PrimEvent.stopped])).map PrimEvent.instant) s =
        run ((ps ++ [PrimEvent.stopped]).map PrimEvent.instant) (takeStatus p st d s) := by
  obtain ⟨q, hreq⟩ := h.request
  have ht : s.seq.task.transmitting = false := by rw [h.task]; rfl
  have hinst : PrimEvent.instant ⟨p, some st, p.returns d⟩ = .answer st ((p.returns d).getD 0) := rfl
  rw [List.map_cons, hinst, run_cons h.busy] at hrun ⊢
  generalize hl : (ps ++ [PrimEvent.stopped]).map PrimEvent.instant = l at hrun ⊢
  by_cases hq : q = .stop
  · subst hq
    have hover : (takeStop (s.withInputs l)).busy = false := takeStop_busy h.task
    rw [busyInstant_stop_of_quiet (j := .answer st _) (s := s.withInputs l) hreq ht rfl rfl rfl, run_idle hover,
      withInputs_env, takeStop_prims] at hrun
    injection List.append_cancel_left hrun with hev
    cases congrArg PrimEvent.status hev
  · rw [busyInstant_answer (s := s.withInputs l) hreq hq ht, takeStatus_withInputs h.task hreq hq, run_withInputs] at hrun ⊢
    generalize hd0 : (p.returns d).getD 0 = d0 at hrun ⊢
    have hprims := takeStatus_prims q st d0 s
    cases hb : (takeStatus q st d0 s).busy with
    | false =>
      rw [run_idle hb, withInputs_env, hprims] at hrun
      injection List.append_cancel_left hrun with _ htail
      simp at htail
    | true =>
      have hgo := h.takeStatus hreq hq st d0 hb
      obtain ⟨more, hmore⟩ := hgo.run_prims (hl ▸ reset_map_instant (ps := ps ++ [PrimEvent.stopped]))
      rw [hmore, hprims, List.append_assoc] at hrun
      injection List.append_cancel_left hrun with hev
      obtain rfl : q = p := congrArg PrimEvent.prim hev
      have hdata : takeStatus q st d0 s = takeStatus q st d s := takeStatus_data hreq st (congrArg PrimEvent.data hev)
      rw [hdata] at hgo ⊢
      exact ⟨hreq, hq, hgo, rfl⟩

/-- Where the environment answers as in a history, the closed loop does what the run with that history does, by induction
on the history. -/
theorem drive_of_run {ps : List PrimEvent} {e e' : RefEnv} {s : State} (h : Transacting s) (hans : Answers e ps e')
    (hrun : (run ((ps ++ [PrimEvent.stopped]).map PrimEvent.instant) s).env.prims = s.env.prims ++ (ps ++ [PrimEvent.stopped])) :
    ∃ k, drive k (e, s.withInputs []) =
      ((e'.answer .stop).2, run ((ps ++ [PrimEvent.stopped]).map PrimEvent.instant) s) := by
  induction hans generalizing s with
  | nil e => exact ⟨1, drive_stop h hrun⟩
  | @cons e e1 e' p st d ps head tail ih =>
    obtain ⟨hreq, hp, hgo, hrest⟩ := run_answered h hrun
    have ht : s.seq.task.transmitting = false := by rw [h.task]; rfl
    rw [List.cons_append, hrest, List.append_cons s.env.prims, ← takeStatus_prims] at hrun
    obtain ⟨k, hk⟩ := ih hgo hrun
    refine ⟨k + 1, ?_⟩
    rw [drive_succ (by exact h.busy), closedStep_answer (by exact hreq) hp (by exact ht) head,
      takeStatus_withInputs h.task hreq hp, hk, List.cons_append, hrest]

end Sys2Proof.Machine
end

section
/-! The reference environment (R93): how a device answers the primitives of a Read and of a Write, and the round trip of
R163. -/

namespace Sys2Proof.Machine

/-! ### The devices -/

theorem dev?_setDev {e : RefEnv} {a : DevAddr} {d : RefDevice} (h : e.dev? a = some d) (d' : RefDevice) :
    (e.setDev a d').dev? a = some d' := by
  obtain ⟨q, hq, _⟩ := Option.map_eq_some_iff.1 h
  have hkey : ((fun p : DevAddr × RefDevice => p.1 == a) ∘ fun p => if p.1 == a then (a, d') else p) =
      fun p => p.1 == a := by
    funext p
    by_cases hp : p.1 = a <;> simp [hp]
  have hfound : (q.1 == a) = true := List.find?_some (p := fun p : DevAddr × RefDevice => p.1 == a) hq
  simp only [RefEnv.dev?, RefEnv.setDev, List.find?_map, hkey, hq, Option.map_some, hfound, if_true]

/-- The environment holds the device `d` at the address `a`, makes a written device busy `w` times, and forces nothing. -/
structure RefEnv.Serves (e : RefEnv) (a : DevAddr) (d : RefDevice) (w : Nat) : Prop where
  dev : e.dev? a = some d
  wbusy : e.wbusy = w
  forced : e.forced = []

/-- ... and is in the midst of a transaction. -/
structure RefEnv.Midst (e : RefEnv) (a : DevAddr) (d : RefDevice) (w : Nat) (sel : Option RefSel) (afterStart : Bool) :
    Prop extends e.Serves a d w where
  sel : e.sel = sel
  afterStart : e.afterStart = afterStart

theorem answer_plain {e : RefEnv} (h : e.forced = []) (p : Prim) :
    e.answer p = ({ e with count := e.count + 1 } : RefEnv).plain p := by
  simp [RefEnv.answer, h]

theorem RefEnv.Serves.setDev {e : RefEnv} {a : DevAddr} {d : RefDevice} {w : Nat} (h : e.Serves a d w) (d' : RefDevice) :
    (e.setDev a d').Serves a d' w :=
  ⟨dev?_setDev h.dev d', h.wbusy, h.forced⟩

section
variable {e : RefEnv} {a : DevAddr} {d : RefDevice} {w : Nat}

/-! ### START and the selection -/

theorem answer_start (h : e.Serves a d w) :
    ∃ st e', isStart st = true ∧ e.answer .start = ((st, 0), e') ∧ e'.Midst a d w none true := by
  refine ⟨if e.owned then 0x10 else 0x08, _, ?_, answer_plain h.forced .start, ⟨h.dev, h.wbusy, h.forced⟩, rfl, rfl⟩
  split <;> rfl

theorem selectByte_fields (a : DevAddr) (rw : BitVec 1) :
    (a ++ rw).extractLsb' 1 7 = a ∧ (a ++ rw)[0] = rw[0] := by
  constructor
  · ext i hi
    rw [BitVec.getElem_extractLsb', BitVec.getLsbD_append, if_neg (by omega), Nat.add_sub_cancel_left,
      BitVec.getLsbD_eq_getElem hi]
  · rw [BitVec.getElem_append, dif_pos Nat.zero_lt_one]

/-- A busy device refuses the selection for writing and is busy once less. -/
theorem answer_refused {sel : Option RefSel} (h : e.Midst a d w sel true) (hb : 0 < d.busy) :
    ∃ e', e.answer (.send (a ++ 0#1)) = ((stSlawNack, 0), e') ∧ e'.Serves a { d with busy := d.busy - 1 } w := by
  obtain ⟨haddr, hrw⟩ := selectByte_fields a 0#1
  have hserves : ({ e with count := e.count + 1, afterStart := false } : RefEnv).Serves a d w :=
    ⟨h.dev, h.wbusy, h.forced⟩
  refine ⟨_, ?_, hserves.setDev _⟩
  rw [answer_plain h.forced]
  simp [RefEnv.plain, RefEnv.send, RefEnv.select, h.afterStart, haddr, hrw, hserves.dev, hb]

/-- A device that is not busy takes the selection. -/
theorem answer_selected {sel : Option RefSel} (h : e.Midst a d w sel true) (hb : d.busy = 0) {rw : BitVec 1} {reading : Bool}
    (hrw : rw[0] = reading) :
    ∃ e', e.answer (.send (a ++ rw)) = ((if reading then stSlarAck else stSlawAck, 0), e') ∧
      e'.Midst a d w (some ⟨a, reading, 0, 0⟩) false := by
  obtain ⟨haddr, hbit⟩ := selectByte_fields a rw
  have hdev : ({ e with count := e.count + 1, afterStart := false } : RefEnv).dev? a = some d := h.dev
  refine ⟨{ e with count := e.count + 1, afterStart := false, sel := some ⟨a, reading, 0, 0⟩ }, ?_,
    ⟨h.dev, h.wbusy, h.forced⟩, rfl, rfl⟩
  rw [answer_plain h.forced]
  simp [RefEnv.plain, RefEnv.send, RefEnv.select, h.afterStart, haddr, hbit, hrw, hdev, hb]

/-- A device refuses as many selections as it is busy. -/
theorem answers_busy (n : Nat) {e : RefEnv} {d : RefDevice} (h : e.Serves a d w) (hn : d.busy = n) :
    ∃ sts e', sts.length = n ∧ (∀ b ∈ sts, isStart b = true) ∧ Answers e (busyPrims a sts) e' ∧
      e'.Serves a { d with busy := 0 } w := by
  induction n generalizing e d with
  | zero => exact ⟨[], e, rfl, nofun, .nil e, by rw [← hn]; exact h⟩
  | succ n ih =>
    obtain ⟨st, e1, hs, hstart, h1⟩ := answer_start h
    obtain ⟨e2, hsend, h2⟩ := answer_refused h1 (by omega)
    obtain ⟨sts, e', hlen, hsts, hans, h'⟩ := ih h2 (by simp only; omega)
    refine ⟨st :: sts, e', by rw [List.length_cons, hlen], ?_, .cons hstart (.cons hsend hans), h'⟩
    intro b hb
    rcases List.mem_cons.1 hb with rfl | hb
    · exact hs
    · exact hsts b hb

/-! ### Address and data bytes -/

theorem send_accept {e : RefEnv} {sel : RefSel} (ha : e.afterStart = false) (hs : e.sel = some sel)
    (hw : sel.reading = false) (hd : e.dev? sel.dev = some d) (b : Byte) : e.send b = (stTxAck, e.accept b sel d) := by
  simp [RefEnv.send, ha, hs, hw, hd]

/-- A byte sent to the device selected for writing. -/
theorem answer_send {sel : RefSel} (h : e.Midst a d w (some sel) false) (hdev : sel.dev = a) (hw : sel.reading = false)
    (b : Byte) :
    e.answer (.send b) = ((stTxAck, 0), ({ e with count := e.count + 1 } : RefEnv).accept b sel d) := by
  have hd : ({ e with count := e.count + 1 } : RefEnv).dev? sel.dev = some d := by rw [hdev]; exact h.dev
  rw [answer_plain h.forced]
  simp only [RefEnv.plain, send_accept (e := { e with count := e.count + 1 }) h.afterStart h.sel hw hd]

/-- An address byte that is not the last one. -/
theorem answer_addrByte {sel : RefSel} (h : e.Midst a d w (some sel) false) (hdev : sel.dev = a) (hw : sel.reading = false)
    (ht : sel.taken + 1 < d.aw) (b : Byte) :
    ∃ e', e.answer (.send b) = ((stTxAck, 0), e') ∧
      e'.Midst a d w (some { sel with taken := sel.taken + 1, acc := sel.acc * 256 + b.toNat }) false := by
  refine ⟨_, answer_send h hdev hw b, ?_⟩
  rw [RefEnv.accept, if_pos (by omega)]
  dsimp only
  rw [if_neg (by omega)]
  exact ⟨⟨h.dev, h.wbusy, h.forced⟩, rfl, h.afterStart⟩

/-- The last address byte sets the pointer. -/
theorem answer_lastAddrByte {sel : RefSel} (h : e.Midst a d w (some sel) false) (hdev : sel.dev = a)
    (hw : sel.reading = false) (ht : sel.taken + 1 = d.aw) (b : Byte) :
    ∃ e', e.answer (.send b) = ((stTxAck, 0), e') ∧
      e'.Midst a { d with ptr := (sel.acc * 256 + b.toNat) % d.size } w
        (some { sel with taken := d.aw, acc := sel.acc * 256 + b.toNat }) false := by
  refine ⟨_, answer_send h hdev hw b, ?_⟩
  rw [RefEnv.accept, if_pos (by omega)]
  dsimp only
  rw [if_pos ht, ht, hdev]
  have hs : ({ e with
      count := e.count + 1, sel := some { sel with taken := d.aw, acc := sel.acc * 256 + b.toNat } } : RefEnv).Serves a d w :=
    ⟨h.dev, h.wbusy, h.forced⟩
  exact ⟨hdev ▸ hs.setDev _, rfl, h.afterStart⟩

/-- A data byte goes to the pointer. -/
theorem answer_dataByte {sel : RefSel} (h : e.Midst a d w (some sel) false) (hdev : sel.dev = a) (hw : sel.reading = false)
    (ht : sel.taken = d.aw) (b : Byte) :
    ∃ e', e.answer (.send b) = ((stTxAck, 0), e') ∧
      e'.Midst a { d with mem := Memory.write d.mem d.ptr b, ptr := (d.ptr + 1) % d.size } w (some sel) false := by
  refine ⟨_, answer_send h hdev hw b, ?_⟩
  rw [RefEnv.accept, if_neg (by omega), hdev]
  have hs : ({ e with count := e.count + 1 } : RefEnv).Serves a d w := ⟨h.dev, h.wbusy, h.forced⟩
  obtain ⟨hd, hwb, hf⟩ := hs.setDev { d with mem := Memory.write d.mem d.ptr b, ptr := (d.ptr + 1) % d.size }
  exact ⟨⟨hd, hwb, hf⟩, h.sel, h.afterStart⟩

/-- The device offset that the address bytes name (R77). -/
def deviceOffset (aw : BitVec 2) (off : Half) : Nat := if aw = 2 then off.toNat else off.toNat % 256

/-- START, the selection and the address bytes of a device that is not busy: its pointer is set. -/
theorem answers_select {aw : BitVec 2} (h : e.Serves a d w) (hb : d.busy = 0) (ha : aw = 1 ∨ aw = 2)
    (haw : d.aw = aw.toNat) (off : Half) :
    ∃ st e', isStart st = true ∧ Answers e (selectPrims st a aw off) e' ∧
      e'.Midst a { d with ptr := deviceOffset aw off % d.size } w (some ⟨a, false, d.aw, deviceOffset aw off⟩) false := by
  obtain ⟨st, e1, hs, hstart, h1⟩ := answer_start h
  obtain ⟨e2, hsel, h2⟩ := answer_selected h1 hb (rw := 0#1) (reading := false) (by simp)
  have hlow : (off.extractLsb' 0 8).toNat = off.toNat % 256 := by simp [BitVec.extractLsb'_toNat]
  have hhigh : (off.extractLsb' 8 8).toNat = off.toNat / 256 := by
    have := off.isLt
    rw [BitVec.extractLsb'_toNat, Nat.shiftRight_eq_div_pow]
    omega
  rcases ha with rfl | rfl
  · obtain ⟨e3, hlo, h3⟩ := answer_lastAddrByte h2 rfl rfl (by rw [haw]; rfl) (off.extractLsb' 0 8)
    refine ⟨st, e3, hs, .cons hstart (.cons hsel (.cons hlo (.nil e3))), ?_⟩
    simpa [deviceOffset, hlow] using h3
  · obtain ⟨e3, hhi, h3⟩ := answer_addrByte h2 rfl rfl (by rw [haw]; exact Nat.one_lt_two) (off.extractLsb' 8 8)
    obtain ⟨e4, hlo, h4⟩ := answer_lastAddrByte h3 rfl rfl (by rw [haw]; rfl) (off.extractLsb' 0 8)
    refine ⟨st, e4, hs, .cons hstart (.cons hsel (.cons hhi (.cons hlo (.nil e4)))), ?_⟩
    have hsum : off.toNat / 256 * 256 + off.toNat % 256 = off.toNat := by omega
    simpa [deviceOffset, hlow, hhigh, hsum] using h4

/-- The data bytes of a Write land from the pointer on. -/
theorem answers_writeData (bs : List Byte) {e : RefEnv} {d : RefDevice} {sel : RefSel} {p : Nat}
    (h : e.Midst a d w (some sel) false) (hdev : sel.dev = a) (hw : sel.reading = false) (ht : sel.taken = d.aw)
    (hptr : d.ptr = p % d.size) (hfit : p + bs.length ≤ d.size) :
    ∃ e' ptr, Answers e (bs.map fun b => .sent (.send b) stTxAck) e' ∧
      e'.Midst a { d with mem := Memory.writeBytes p bs d.mem, ptr := ptr } w (some sel) false := by
  induction bs generalizing e d p with
  | nil => exact ⟨e, d.ptr, .nil e, h⟩
  | cons b bs ih =>
    rw [List.length_cons] at hfit
    have hp : d.ptr = p := by rw [hptr, Nat.mod_eq_of_lt (by omega)]
    obtain ⟨e1, hsend, h1⟩ := answer_dataByte h hdev hw ht b
    rw [hp] at h1
    obtain ⟨e', ptr, hans, h'⟩ := ih h1 ht rfl (by simp only; omega)
    exact ⟨e', ptr, .cons hsend hans, h'⟩

/-! ### Receives -/

theorem recv_selected {e : RefEnv} {sel : RefSel} (hs : e.sel = some sel) (hr : sel.reading = true)
    (hd : e.dev? sel.dev = some d) (st : Byte) :
    e.recv st = ((st, d.get d.ptr), e.setDev sel.dev { d with ptr := (d.ptr + 1) % d.size }) := by
  simp [RefEnv.recv, hs, hr, hd]

/-- A receive returns the byte under the pointer, with the status asked for. -/
theorem answer_recv {p : Prim} {st : Byte} (hp : ∀ e : RefEnv, e.plain p = e.recv st) {sel : RefSel} {after : Bool}
    (h : e.Midst a d w (some sel) after) (hdev : sel.dev = a) (hrd : sel.reading = true) :
    ∃ e', e.answer p = ((st, d.get d.ptr), e') ∧
      e'.Midst a { d with ptr := (d.ptr + 1) % d.size } w (some sel) after := by
  have hs : ({ e with count := e.count + 1 } : RefEnv).Serves a d w := ⟨h.dev, h.wbusy, h.forced⟩
  have hd : ({ e with count := e.count + 1 } : RefEnv).dev? sel.dev = some d := by rw [hdev]; exact h.dev
  obtain ⟨hd', hwb, hf⟩ := hs.setDev { d with ptr := (d.ptr + 1) % d.size }
  refine ⟨_, by rw [answer_plain h.forced, hp, recv_selected (by exact h.sel) hrd hd], ?_⟩
  rw [hdev]
  exact ⟨⟨hd', hwb, hf⟩, h.sel, h.afterStart⟩

/-- The receives of a Read return the bytes from the pointer on. -/
theorem answers_readData (n : Nat) {e : RefEnv} {d : RefDevice} {sel : RefSel} {after : Bool} {p : Nat}
    (h : e.Midst a d w (some sel) after) (hdev : sel.dev = a) (hrd : sel.reading = true) (hptr : d.ptr = p % d.size)
    (hfit : p + n ≤ d.size) : ∃ e', Answers e (dataPrims ((List.range' p n).map d.get)) e' := by
  induction n generalizing e d p with
  | zero => exact ⟨e, .nil e⟩
  | succ n ih =>
    have hp : d.ptr = p := by rw [hptr, Nat.mod_eq_of_lt (by omega)]
    cases n with
    | zero =>
      obtain ⟨e1, hrecv, _⟩ := answer_recv (p := .recvNack) (fun _ => rfl) h hdev hrd
      rw [hp] at hrecv
      exact ⟨e1, .cons hrecv (.nil e1)⟩
    | succ n =>
      obtain ⟨e1, hrecv, h1⟩ := answer_recv (p := .recvAck) (fun _ => rfl) h hdev hrd
      rw [hp] at hrecv h1
      obtain ⟨e', hans⟩ := ih h1 rfl (by simp only; omega)
      exact ⟨e', .cons hrecv hans⟩

/-! ### STOP, and the transactions -/

theorem stop_selected {e : RefEnv} {sel : RefSel} (h : e.Serves a d w) (hs : e.sel = some sel) (hdev : sel.dev = a) :
    ∃ n, (n = d.busy ∨ n = w) ∧ e.stop.Serves a { d with busy := n } w := by
  subst hdev
  by_cases hw : (!sel.reading && e.wrote) = true
  · obtain ⟨hd, hwb, hf⟩ := h.setDev { d with busy := w }
    refine ⟨w, .inr rfl, ?_⟩
    simp only [RefEnv.stop, hs, hw, if_true, h.dev, h.wbusy]
    exact ⟨hd, hwb, hf⟩
  · refine ⟨d.busy, .inl rfl, ?_⟩
    simp only [RefEnv.stop, hs, hw, if_false, Bool.false_eq_true]
    exact ⟨h.dev, h.wbusy, h.forced⟩

/-- STOP leaves the selected device busy as it is, or, written, as the environment makes it. -/
theorem answer_stop {sel : RefSel} {after : Bool} (h : e.Midst a d w (some sel) after) (hdev : sel.dev = a) :
    ∃ n, (n = d.busy ∨ n = w) ∧ (e.answer .stop).2.Serves a { d with busy := n } w := by
  rw [answer_plain h.forced]
  exact stop_selected (e := { e with count := e.count + 1 }) ⟨h.dev, h.wbusy, h.forced⟩ h.sel hdev

variable {aw : BitVec 2} {off : Half}

/-- A Write of the device: refused as often as it is busy, then it takes the bytes; after the STOP it holds them. -/
theorem answers_write (h : e.Serves a d w) (ha : aw = 1 ∨ aw = 2) (haw : d.aw = aw.toNat) {bs : List Byte}
    (hfit : deviceOffset aw off + bs.length ≤ d.size) :
    ∃ sts st e' d', sts.length = d.busy ∧ (∀ b ∈ sts, isStart b = true) ∧ isStart st = true ∧
      Answers e (busyPrims a sts ++ (selectPrims st a aw off ++ bs.map fun b => .sent (.send b) stTxAck)) e' ∧
      (e'.answer .stop).2.Serves a d' w ∧ (d'.busy = 0 ∨ d'.busy = w) ∧ d'.aw = d.aw ∧ d'.size = d.size ∧
      d'.mem = Memory.writeBytes (deviceOffset aw off) bs d.mem := by
  obtain ⟨sts, e1, hlen, hsts, hbusy, h1⟩ := answers_busy d.busy h rfl
  obtain ⟨st, e2, hst, hsel, h2⟩ := answers_select h1 rfl ha haw off
  obtain ⟨e3, ptr, hdata, h3⟩ := answers_writeData bs h2 rfl rfl rfl rfl hfit
  obtain ⟨n, hn, h4⟩ := answer_stop h3 rfl
  exact ⟨sts, st, e3, _, hlen, hsts, hst, hbusy.append (hsel.append hdata), h4, hn, rfl, rfl, rfl⟩

/-- A Read of the device: refused as often as it is busy, then it gives the bytes. -/
theorem answers_read (h : e.Serves a d w) (ha : aw = 1 ∨ aw = 2) (haw : d.aw = aw.toNat) {n : Nat}
    (hfit : deviceOffset aw off + n ≤ d.size) :
    ∃ sts st st2 e', sts.length = d.busy ∧ (∀ b ∈ sts, isStart b = true) ∧ isStart st = true ∧ isStart st2 = true ∧
      Answers e (busyPrims a sts ++ (selectPrims st a aw off ++
        [.sent .start st2, .sent (.send (a ++ 1#1)) stSlarAck] ++
        dataPrims ((List.range' (deviceOffset aw off) n).map d.get))) e' := by
  obtain ⟨sts, e1, hlen, hsts, hbusy, h1⟩ := answers_busy d.busy h rfl
  obtain ⟨st, e2, hst, hsel, h2⟩ := answers_select h1 rfl ha haw off
  obtain ⟨st2, e3, hst2, hstart, h3⟩ := answer_start h2.toServes
  obtain ⟨e4, hslar, h4⟩ := answer_selected h3 rfl (rw := 1#1) (reading := true) (by simp)
  obtain ⟨e5, hdata⟩ := answers_readData n h4 rfl rfl rfl hfit
  exact ⟨sts, st, st2, e5, hlen, hsts, hst, hst2,
    hbusy.append ((hsel.append (.cons hstart (.cons hslar (.nil e4)))).append hdata)⟩

end

end Sys2Proof.Machine
end

section
/-! The round trip of R163: a transfer command in closed loop, a Write followed by a Read. -/

namespace Sys2Proof.Machine

/-! ### A transfer command in closed loop -/

/-- An accepted transfer command: its transaction stands at the initial START. -/
theorem accepted_transfer {s : State} {i : Instr} {x : Xfer} (hx : s.xfer? i = some x) :
    s.accepted i = ({ s.commandStart (encodeByte i) with seq := { s.seq with task := .transfer } } : State).startXfer
      x.kind x.dev x.aw x.off x.len := by
  obtain ⟨hsingle, _, _, hbegun⟩ := xfer_single hx
  rw [accepted_single hsingle, hbegun]
  rfl

theorem accepted_transacting {s : State} {i : Instr} {x : Xfer} (hx : s.xfer? i = some x) :
    Transacting (s.accepted i) := by
  rw [accepted_transfer hx]
  exact ⟨rfl, rfl, .of_live rfl, ⟨Nat.zero_le _, nofun, nofun⟩⟩

theorem accepted_waiting {s : State} {i : Instr} {x : Xfer} (hx : s.xfer? i = some x) : Waiting (s.accepted i) := by
  rw [accepted_transfer hx]
  exact ⟨rfl, .inr ⟨.start, rfl, nofun⟩⟩

theorem accepted_withInputs {s : State} {i : Instr} {x : Xfer} (hx : s.xfer? i = some x) (l : List Instant) :
    (s.withInputs l).accepted i = (s.accepted i).withInputs l := by
  rw [accepted_transfer hx, accepted_transfer (s := s.withInputs l) (x := x) (by exact hx)]
  rfl

theorem accepted_prims {s : State} {i : Instr} {x : Xfer} (hx : s.xfer? i = some x) :
    (s.accepted i).env.prims = s.env.prims := by
  rw [accepted_transfer hx]
  rfl

/-- The instant of the `CMD` write: the command is accepted and waits for the answer to its first primitive. -/
theorem instantStep_command {s : State} {i : Instr} {x : Xfer} (hr : Ready s) (hx : s.xfer? i = some x) :
    instantStep { host := some (.write addrCmd (encodeByte i)) } s = (s.accepted i).withInputs [] := by
  have hw : Waiting ((s.accepted i).withInputs []) := ⟨(accepted_waiting hx).busy, (accepted_waiting hx).wait⟩
  rw [instantStep, step_listed rfl]
  dsimp only
  rw [show ∀ j l, (s.withInputs l).withInputs j = s.withInputs j from fun _ _ => rfl,
    instant_command (by rfl) (by exact hr.busy) (by rfl), latchTick_false, byteBody_encodeByte,
    accept_ready (by exact hr.busy) (by exact hr.halt), ← State.accepted, accepted_withInputs hx, State.runSeq]
  exact run_nil_waiting hw

/-- A transfer command in closed loop with an environment that answers its transaction: it ends as on listed answers. -/
theorem drive_transfer {s : State} {i : Instr} {x : Xfer} {e e' : RefEnv} {qs : List PrimEvent} {sts : List Byte}
    {st st2 : Byte} {ds : List Byte} (hr : Ready s) (hx : s.xfer? i = some x) (hsts : ∀ b ∈ sts, isStart b = true)
    (hlen : sts.length < s.cfg.maxIter.toNat) (hs : isStart st = true) (hs2 : isStart st2 = true) (hd : x.data s ds)
    (hqs : busyPrims x.dev sts ++ x.prims st st2 ds = qs ++ [PrimEvent.stopped]) (hans : Answers e qs e') :
    ∃ k, drive k (e, instantStep { host := some (.write addrCmd (encodeByte i)) } s) =
      ((e'.answer .stop).2,
        { s.ended (encodeByte i) (s.bte.done x.kind x.dev x.aw x.off x.len (BitVec.ofNat 8 sts.length))
            (qs ++ [PrimEvent.stopped]) [] with dbuf := x.dbuf ds s.dbuf }) := by
  have htrace : (qs ++ [PrimEvent.stopped]).map PrimEvent.instant = busyTrace sts ++ x.trace st st2 ds ++ [] := by
    rw [← hqs, List.map_append, map_instant_busyPrims, x.map_instant_prims, List.append_nil]
  generalize hl : (qs ++ [PrimEvent.stopped]).map PrimEvent.instant = l at htrace
  have hrl : Ready (s.withInputs l) := ⟨hr.busy, hr.halt, hr.pstate, hr.task⟩
  have hexec := exec_transfer_retried hrl hx hsts hlen hs hs2 hd htrace
  rw [exec_ready hrl, hqs, accepted_withInputs hx, run_withInputs] at hexec
  have hrun := Host.Outcome.next.inj hexec
  obtain ⟨k, hk⟩ := drive_of_run (accepted_transacting hx) hans (by
    rw [hl, accepted_prims hx]; exact congrArg (·.env.prims) hrun)
  rw [hl] at hk
  refine ⟨k, ?_⟩
  rw [instantStep_command hr hx, hk]
  exact congrArg _ hrun

/-! ### A Write and a Read of a reference device -/

section
variable {s : State} {e : RefEnv} {d : RefDevice} {w : Nat}

/-- BWRITE in closed loop: it succeeds, and the device holds the first bytes of `DBUF`. -/
theorem drive_bwrite (hr : Ready s) (h : e.Serves s.opDev d w) (haw : d.aw = s.opAw.toNat)
    (hbusy : d.busy < s.cfg.maxIter.toNat) (hfit : deviceOffset s.opAw s.ops.off + s.ops.len.toNat ≤ d.size) :
    ∃ k e' d' iter ps, drive k (e, instantStep { host := some (.write addrCmd 0x11) } s) =
        (e', s.ended 0x11 (s.bte.done .wr s.opDev s.opAw s.ops.off s.ops.len iter) ps []) ∧
      e'.Serves s.opDev d' w ∧ (d'.busy = 0 ∨ d'.busy = w) ∧ d'.aw = d.aw ∧ d'.size = d.size ∧
      d'.mem = Memory.writeBytes (deviceOffset s.opAw s.ops.off) (s.dbufTake s.ops.len.toNat) d.mem := by
  have hl : (s.dbufTake s.ops.len.toNat).length = s.ops.len.toNat := by simp [State.dbufTake]
  obtain ⟨sts, st, e', d', hlen, hsts, hst, hans, hdev⟩ :=
    answers_write h (opAw_cases s) haw (bs := s.dbufTake s.ops.len.toNat) (by rw [hl]; exact hfit)
  obtain ⟨k, hk⟩ := drive_transfer (i := .bwrite) (st2 := stStart) hr rfl hsts (by omega) hst rfl ⟨hl, fun _ => rfl⟩
    (List.append_assoc _ _ _).symm hans
  exact ⟨k, _, d', _, _, hk, hdev⟩

/-- BREAD in closed loop: it succeeds, and the bytes of the device stand in `DBUF`. -/
theorem drive_bread (hr : Ready s) (h : e.Serves s.opDev d w) (haw : d.aw = s.opAw.toNat)
    (hbusy : d.busy < s.cfg.maxIter.toNat) (hfit : deviceOffset s.opAw s.ops.off + s.ops.len.toNat ≤ d.size) :
    ∃ k e' iter ps, drive k (e, instantStep { host := some (.write addrCmd 0x10) } s) =
      (e', { s.ended 0x10 (s.bte.done .rd s.opDev s.opAw s.ops.off s.ops.len iter) ps [] with
        dbuf := Memory.writeBytes 0 ((List.range' (deviceOffset s.opAw s.ops.off) s.ops.len.toNat).map d.get) s.dbuf }) := by
  obtain ⟨sts, st, st2, e', hlen, hsts, hst, hst2, hans⟩ := answers_read h (opAw_cases s) haw hfit
  obtain ⟨k, hk⟩ := drive_transfer (i := .bread) hr rfl hsts (by omega) hst hst2 ⟨by simp, nofun⟩
    (List.append_assoc _ _ _).symm hans
  exact ⟨k, _, _, _, hk⟩

end

/-- The byte of `DBUF` that a read of a device from the offset `p` on left. -/
theorem dbufGet_readBytes (s : State) (get : Nat → Byte) {p n : Nat} {b : Byte} (hb : b.toNat < n) :
    ({ s with dbuf := Memory.writeBytes 0 ((List.range' p n).map get) s.dbuf } : State).dbufGet b = get (p + b.toNat) := by
  rw [dbufGet_writeBytes, dif_pos (by simpa using hb)]
  simp

theorem get_writeBytes {d : RefDevice} {p k : Nat} {bs : List Byte} {m : Memory} (hm : d.mem = Memory.writeBytes p bs m)
    (hk : k < bs.length) : d.get (p + k) = bs[k] := by
  rw [RefDevice.get, hm, Memory.read?_writeBytes, if_pos (Nat.le_add_right p k), Nat.add_sub_cancel_left,
    List.getElem?_eq_getElem hk]
  rfl

/-- Settles O20: BWRITE leaves the bytes in the device and BREAD fetches them; the device is then busy as often as the
environment makes a written device, or not at all. -/
theorem writeReadRoundTrip : Obligations.WriteReadRoundTrip := by
  intro e d s hr _ hdev haw hforced hbusy hwbusy hfit
  obtain ⟨k, e', d', iter, ps, hk, hserves, hbusy', haw', hsize, hmem⟩ := drive_bwrite hr ⟨hdev, rfl, hforced⟩ haw hbusy hfit
  refine ⟨k, e', _, hk, hr.busy, rfl, rfl, fun m => ?_⟩
  have hmax : d'.busy < s.cfg.maxIter.toNat := by omega
  obtain ⟨k', e'', iter', ps', hk'⟩ := drive_bread (e := e') (d := d')
    (s := { s.ended 0x11 (s.bte.done .wr s.opDev s.opAw s.ops.off s.ops.len iter) ps [] with dbuf := m })
    ⟨hr.busy, hr.halt, rfl, hr.task⟩ hserves (haw'.trans haw) hmax (hsize ▸ hfit)
  refine ⟨k', e'', _, hk', hr.busy, rfl, rfl, fun b hb => ?_⟩
  have hlt : b.toNat < s.ops.len.toNat := hb
  have hget : d'.get (deviceOffset s.opAw s.ops.off + b.toNat) = s.dbufGet b := by
    rw [get_writeBytes hmem (by simpa [State.dbufTake] using hlt)]
    simp [State.dbufTake]
  exact (dbufGet_readBytes _ d'.get hlt).trans hget

end Sys2Proof.Machine
end

section
/-! The bounds of the record store (R188): the capacity, and the offsets of the slots below it. -/

namespace Sys2Proof.Machine

/-- `CAPACITY` as a number: the bound on `MEMSIZE` leaves a quotient of at most 6553, which 16 bits hold (R188). -/
theorem toNat_capacityOf_eq (memAw2 : Bool) (m : BitVec 32) :
    (capacityOf memAw2 m).toNat = min m.toNat (if memAw2 = true then 65536 else 256) / 10 := by
  rw [capacityOf, BitVec.toNat_ofNat]
  split <;> omega

/-- A memory smaller than one record holds none. -/
theorem capacityOf_eq_zero (memAw2 : Bool) {m : BitVec 32} (h : m < 10) : capacityOf memAw2 m = 0 := by
  have hm : m.toNat < 10 := BitVec.lt_def.1 h
  rw [← BitVec.toNat_inj, toNat_capacityOf_eq]
  exact Nat.div_eq_of_lt (Nat.lt_of_le_of_lt (Nat.min_le_left _ _) hm)

/-- The offset of a slot is exact below 6553 slots, in the 17 bits of the product and in the 16 of `XOFF` (R208). -/
theorem toNat_recOffset {i : Half} (h : i.toNat ≤ 6553) : (recOffset i).toNat = 10 * i.toNat := by
  rw [recOffset, BitVec.toNat_setWidth, BitVec.toNat_mul, BitVec.toNat_setWidth, BitVec.toNat_ofNat]
  omega

/-- Settles O24: the capacity and the offsets as numbers; the table is computed. -/
theorem capacityBounds : Obligations.CapacityBounds := by
  refine ⟨fun m => ⟨toNat_capacityOf_eq true m, capacityOf_le true m, toNat_capacityOf_eq false m, capacityOf_le false m,
    fun hm => ⟨capacityOf_eq_zero true hm, capacityOf_eq_zero false hm⟩⟩, fun i hi => ?_, by decide⟩
  have hlt : i.toNat < 6553 := BitVec.lt_def.1 hi
  have hoff := toNat_recOffset (Nat.le_of_lt hlt)
  exact ⟨hoff, by omega, by omega⟩

end Sys2Proof.Machine
end

section
/-! What `FAIL` says when an operation is over (R277, R278): what stands in the registers while an operation is under way,
by its transaction's result, decides what it reports. -/

namespace Sys2Proof.Machine

/-! ### What an operation reports -/

/-- What `FAIL` says when the operation `o`, begun in `b`, is over in `t` (R277, R278). -/
def Reports (o : Task) (b t : State) : Prop :=
  match o with
  | .idle => t.fail = false
  | .transfer | .rdRec | .wrRec => t.fail = true ↔ t.err ≠ 0
  | .getTime => (t.fail = true ↔ t.err ≠ 0) ∧ (t.fail = true → t.dt = b.dt)
  | .loadCfg =>
    (t.fail = true ↔ t.err ≠ 0) ∧ t.cfgok = !t.fail ∧ (t.fail = true → t.capacity = 0 ∧ t.hw = b.hw) ∧
      t.cursor = b.cursor
  | .cntValid => t.fail = false ∧ (t.err ≠ 0 → t.res = 0)
  | .dueTime | .dueScan _ | .dueTx _ =>
    (t.fail = true →
      t.cursor = b.cursor ∧ t.err ≠ 0 ∧ t.err ≠ 6 ∧ t.env.txs = b.env.txs ∧ (t.err ≠ 7 → t.dt = b.dt)) ∧
    (t.fail = false → t.dt.bad = false ∧ t.cursor.lastMin = t.dt.minuteOfDay)

/-- The operation `o`, begun in `b`, is not over in `t`: the results are as they were until a scan is entered, which is
after a good time only (R223, R224). -/
structure Unreported (o : Task) (b t : State) : Prop where
  busy : t.busy = true
  op : t.seq.task.op = o
  live : t.seq.task ≠ .idle
  fail : t.fail = b.fail
  kept : t.seq.task.scanning = false →
    t.dt = b.dt ∧ t.hw = b.hw ∧ t.cursor = b.cursor ∧ t.env.txs = b.env.txs
  time : t.seq.task.scanning = true → t.dt.bad = false ∧ t.seq.cur = t.dt.minuteOfDay

/-- ... and it waits for the bus or for the transmit sink: before a scan no failure has been raised. -/
structure Pending (o : Task) (b t : State) : Prop extends Unreported o b t where
  err : t.seq.task.scanning = false → t.err = 0
  engine : t.seq.task.transmitting = false → t.bte.Running

/-- The operation waits, or is over and has reported. -/
structure Reporting (o : Task) (b t : State) : Prop where
  active : t.busy = true → Pending o b t
  reported : t.busy = false → Reports o b t

theorem Pending.reporting {o : Task} {b t : State} (h : Pending o b t) : Reporting o b t :=
  ⟨fun _ => h, fun hb => absurd (h.busy.symm.trans hb) nofun⟩

theorem Reports.reporting {o : Task} {b t : State} (h : Reports o b t) (hb : t.busy = false) : Reporting o b t :=
  ⟨fun hb' => absurd (hb.symm.trans hb') nofun, fun _ => h⟩

/-- A transaction begins (R133). -/
theorem Unreported.startXfer {o : Task} {b t : State} (h : Unreported o b t)
    (herr : t.seq.task.scanning = false → t.err = 0) (kind : XKind) (dev : DevAddr) (aw : BitVec 2) (off : Half)
    (n : Byte) : Reporting o b (t.startXfer kind dev aw off n) :=
  Pending.reporting { h with err := herr, engine := fun _ => .of_live rfl }

/-- What the host, TICK and the listed instants change is no part of it. -/
theorem Reporting.congr {o : Task} {b t u : State} (h : Reporting o b t)
    (he : u = { t with tickp := u.tickp, ovr := u.ovr, tickEn := u.tickEn, halt := u.halt,
                       env := { t.env with inputs := u.env.inputs, reads := u.env.reads, draws := u.env.draws } }) :
    Reporting o b u := by
  rw [he]
  exact ⟨fun hb => { h.active hb with }, h.reported⟩

/-! ### The scans of a pass -/

/-- A pass that scans has read a good time: it goes on, or ends without `FAIL` (R226, R231). -/
theorem Acts.reporting_of_scanning {b s t : State} (h : Acts s t) (hs : s.seq.task.scanning = true)
    (hu : Unreported .dueTime b s) : Reporting .dueTime b t := by
  induction h with
  | complete _ ht => exact absurd hu.op ht
  | endCount _ ht | failPass ht | noScan _ ht | load _ _ _ ht | countUp ht | window _ _ _ ht => rw [ht] at hs; cases hs
  | latchTime ht => rcases ht with ht | ht <;> rw [ht] at hs <;> cases hs
  | endPass =>
    obtain ⟨hgood, hcur⟩ := hu.time hs
    exact Reports.reporting ⟨nofun, fun _ => ⟨hgood, hcur⟩⟩ rfl
  | transmit =>
    exact Pending.reporting { hu with op := rfl, live := nofun, kept := nofun, time := fun _ => hu.time hs, err := nofun,
                                      engine := nofun }
  | xfer => exact hu.startXfer (fun hn => absurd (hs.symm.trans hn) nofun) ..
  | raise _ _ ih => exact ih hs { hu with }
  | rescan _ _ ih | acked _ _ _ ih =>
    exact ih rfl { hu with op := rfl, live := nofun, kept := nofun, time := fun _ => hu.time hs }
  | moveCursor _ _ _ _ _ ih => exact ih hs { hu with kept := fun hn => absurd (hs.symm.trans hn) nofun }

/-- Steps 3 to 5 of a pass, whose time is good (R224, R225, R227). -/
theorem windows_reporting {b s : State} (hb : s.busy = true) (hfail : s.fail = b.fail) (hgood : s.dt.bad = false) :
    Reporting .dueTime b s.windows := by
  have hscan : ∀ (more : Bool) (wfrom wto : Minute), Reporting .dueTime b
      ((State.enterScan more wfrom wto { s with seq := { s.seq with cur := s.dt.minuteOfDay } }).fetch more) :=
    fun more wfrom wto => (acts_fetch rfl).reporting_of_scanning rfl
      { busy := hb, op := rfl, live := nofun, fail := hfail, kept := nofun, time := fun _ => ⟨hgood, rfl⟩ }
  unfold State.windows
  dsimp only
  split
  · exact Reports.reporting ⟨nofun, fun _ => ⟨hgood, rfl⟩⟩ rfl
  · split
    · exact hscan false _ _
    · exact hscan true _ _

/-! ### The end of a transaction -/

/-- The codes of a failing transaction are neither `E_NONE` nor `E_RANGE` (R271). -/
theorem busFailure_ne {e : Byte} (h : 1 ≤ e ∧ e ≤ 4) : e ≠ 0 ∧ e ≠ 6 := by
  bv_omega

/-- What a transaction that is over leaves in `ERR` of an operation that does not scan (R131). -/
def XferResult.Leaves (r : XferResult) (err : Byte) : Prop :=
  match r with
  | .ok => err = 0
  | .failed => 1 ≤ err ∧ err ≤ 4

/-- What a record operation sees of its transaction: no failure and the state as it is, or a failure code. -/
theorem recordResult_leaves {r : XferResult} {s : State} (h : r.Leaves s.err) :
    (s.err = 0 ∧ recordResult r s = (s, .ok)) ∨
      ∃ e, e ≠ 0 ∧ recordResult r s = ({ s with err := e }, .failed) := by
  rcases recordResult_cases r s with ⟨rfl, _, he⟩ | ⟨_, _, he⟩ | ⟨rfl, he⟩
  · exact .inl ⟨h, he⟩
  · exact .inr ⟨5, by decide, he⟩
  · exact .inr ⟨s.err, (busFailure_ne h).1, he⟩

/-- An operation that fails with its transaction sets `FAIL` exactly with a code in `ERR` (R277). -/
theorem fail_iff_of_leaves {r : XferResult} {err : Byte} (h : r.Leaves err) : (r == .failed) = true ↔ err ≠ 0 := by
  cases r with
  | ok => exact iff_of_false nofun (not_not.2 h)
  | failed => exact iff_of_true rfl (busFailure_ne h).1

theorem finishRdRec_reporting {b s : State} {r : XferResult} (h : r.Leaves s.err) :
    Reporting .rdRec b (finishRdRec r s) := by
  rcases recordResult_leaves h with ⟨herr, he⟩ | ⟨e, hne, he⟩ <;> rw [finishRdRec, he]
  · exact Reports.reporting (iff_of_false nofun (not_not.2 herr)) rfl
  · exact Reports.reporting (iff_of_true rfl hne) rfl

/-- CNTVALID: `FAIL` is never set, and a failure makes the count 0 (R204, R293). -/
theorem countNext_reporting {b s : State} (h : Unreported .cntValid b s) (herr : s.err = 0) :
    Reporting .cntValid b s.countNext := by
  rcases countNext_cases s with ⟨_, he⟩ | ⟨_, he⟩ <;> rw [he]
  · exact h.startXfer (fun _ => herr) ..
  · exact Reports.reporting ⟨rfl, fun hne => absurd herr hne⟩ rfl

theorem finishCount_reporting {b s : State} (h : Unreported .cntValid b s) {r : XferResult}
    (hr : r.Leaves s.err) : Reporting .cntValid b (finishCount r s) := by
  rcases recordResult_leaves hr with ⟨herr, he⟩ | ⟨e, hne, he⟩ <;> rw [finishCount, he] <;> dsimp only
  · split
    · exact countNext_reporting { h with } herr
    · exact Reports.reporting ⟨rfl, fun hne => absurd herr hne⟩ rfl
  · exact Reports.reporting ⟨rfl, fun _ => rfl⟩ rfl

/-- The time read of a pass: it failed, it read a bad time, or the scans follow (R222, R223). -/
theorem finishDueTime_reporting {b s : State} (h : Unreported .dueTime b s) (ht : s.seq.task = .dueTime) {r : XferResult}
    (hr : r.Leaves s.err) : Reporting .dueTime b (finishDueTime r s) := by
  obtain ⟨hdt, _, hcursor, htxs⟩ := h.kept (by rw [ht]; rfl)
  cases r with
  | failed =>
    obtain ⟨h0, h6⟩ := busFailure_ne hr
    exact Reports.reporting ⟨fun _ => ⟨hcursor, h0, h6, htxs, fun _ => hdt⟩, nofun⟩ rfl
  | ok =>
    rw [finishDueTime]
    split
    · refine Reports.reporting ⟨fun _ => ⟨hcursor, ?_, ?_, htxs, fun hne => absurd rfl hne⟩, nofun⟩ rfl
      · exact (by decide : (7 : Byte) ≠ 0)
      · exact (by decide : (7 : Byte) ≠ 6)
    · next hbad => exact windows_reporting h.busy h.fail (by simpa using hbad)

/-- A scan goes on, whatever its record read came to (R231). -/
theorem finishScan_reporting {b s : State} (h : Unreported .dueTime b s) {more : Bool} (ht : s.seq.task = .dueScan more)
    (r : XferResult) : Reporting .dueTime b (finishScan more r s) := by
  have ha := acts_finish r h.live (by rw [ht]; rfl)
  rw [finish, ht] at ha
  exact ha.reporting_of_scanning (by rw [ht]; rfl) h

/-- The operation whose transaction is over reports, or goes on (R275 (3)). -/
theorem finish_reporting {o : Task} {b s : State} (h : Unreported o b s) (htx : s.seq.task.transmitting = false)
    {r : XferResult} (hr : s.seq.task.scanning = false → r.Leaves s.err) : Reporting o b (finish r s) := by
  obtain rfl := h.op
  have hkept := h.kept
  rw [finish]
  generalize ht : s.seq.task = k at h htx hr hkept ⊢
  cases k with
  | idle => exact absurd ht h.live
  | dueTx more => cases htx
  | dueScan more => exact finishScan_reporting h ht r
  | dueTime => exact finishDueTime_reporting h ht (hr rfl)
  | rdRec => exact finishRdRec_reporting (hr rfl)
  | cntValid => exact finishCount_reporting h (hr rfl)
  | transfer | wrRec =>
    have hiff := fail_iff_of_leaves (hr rfl)
    cases r <;> exact Reports.reporting hiff rfl
  | getTime =>
    have hiff := fail_iff_of_leaves (hr rfl)
    obtain ⟨hdt, _⟩ := hkept rfl
    cases r with
    | ok => exact Reports.reporting ⟨hiff, nofun⟩ rfl
    | failed => exact Reports.reporting ⟨hiff, fun _ => hdt⟩ rfl
  | loadCfg =>
    have hiff := fail_iff_of_leaves (hr rfl)
    obtain ⟨_, hhw, hcursor, _⟩ := hkept rfl
    cases r with
    | ok => exact Reports.reporting ⟨hiff, rfl, nofun, hcursor⟩ rfl
    | failed => exact Reports.reporting ⟨hiff, rfl, fun _ => ⟨rfl, hhw⟩, hcursor⟩ rfl

/-! ### One step, one instant, a run -/

/-- A primitive taken by the engine is no report. -/
theorem Unreported.engineStep {o : Task} {b s u : State} (h : Unreported o b s) (he : EngineStep s u) :
    Unreported o b u := by
  rw [he.frame]
  exact { h with }

/-- The engine goes on with the transaction. -/
theorem Pending.engineStep {o : Task} {b s u : State} (h : Pending o b s) (he : EngineStep s u) (herr : u.err = s.err)
    (hrun : u.bte.Running) : Reporting o b u :=
  Pending.reporting
    { h.toUnreported.engineStep he with err := fun hn => herr.trans (h.err (he.seq ▸ hn)), engine := fun _ => hrun }

/-- The engine is done with the transaction. -/
theorem Pending.ended {o : Task} {b s u : State} (h : Pending o b s) (htx : s.seq.task.transmitting = false)
    (he : EngineStep s u) {r : XferResult} (hr : s.err = 0 → r.Leaves u.err) : Reporting o b (finish r u) :=
  finish_reporting (h.toUnreported.engineStep he) (he.seq ▸ htx) fun hn => hr (h.err (he.seq ▸ hn))

theorem Pending.takeStop {o : Task} {b s : State} (h : Pending o b s) (htx : s.seq.task.transmitting = false)
    (hr : s.request = some .stop) : Reporting o b (takeStop s) := by
  refine h.ended htx (engineStep_bteStop (s.logPrim ⟨.stop, none, none⟩)).of_logPrim fun herr => ?_
  rcases bteStop_cases (s.logPrim ⟨.stop, none, none⟩) with ⟨_, hs⟩ | ⟨hps, hs⟩ <;> rw [hs]
  · exact herr
  · exact (h.engine htx).code ((pstate_of_request_stop hr).resolve_left hps)

theorem Pending.takeStatus {o : Task} {b s : State} (h : Pending o b s) (htx : s.seq.task.transmitting = false) {p : Prim}
    (hr : s.request = some p) (hp : p ≠ .stop) (st d : Byte) : Reporting o b (takeStatus p st d s) := by
  obtain ⟨hl, hd⟩ := live_of_request hr hp
  have he := (engineStep_bteStatus st d (s := s.logPrim ⟨p, some st, p.returns d⟩) hl hd).of_logPrim
  rcases bteStatus_result st d (s := s.logPrim ⟨p, some st, p.returns d⟩) hl with ⟨hn, herr, hrun⟩ | ⟨hs, herr, _⟩
  · rw [takeStatus_none hn]
    exact h.engineStep he herr hrun
  · rw [takeStatus_some hs]
    exact h.ended htx he fun _ => by rw [herr]; exact ⟨by decide, by decide⟩

theorem Pending.enter {o : Task} {b s : State} (h : Pending o b s) (htx : s.seq.task.transmitting = false)
    (hr : s.request = none) : Reporting o b (s.enter s.bte.pstate) := by
  refine h.engineStep (engineStep_enter hr) (by rw [enter_frame]) ?_
  rcases enter_pstate s.bte.pstate s with ⟨_, _, he⟩ | ⟨_, he⟩ <;> rw [he]
  · exact ⟨nofun, nofun⟩
  · exact h.engine htx

/-- A transmission waits for its acknowledgement, then the scan goes on (R47, R236). -/
theorem seqStep_transmitting {s : State} {more : Bool} (ht : s.seq.task = .dueTx more) (i : Instant) :
    seqStep i s = if i.txAck then s.txDone more else s := by
  rw [seqStep, ht]

theorem Pending.seqStep_transmitting {o : Task} {b s : State} (h : Pending o b s) {more : Bool}
    (ht : s.seq.task = .dueTx more) (i : Instant) : Reporting o b (seqStep i s) := by
  have hop := h.op
  rw [ht] at hop
  subst hop
  rw [Machine.seqStep_transmitting ht]
  split
  · exact (acts_txDone ht).reporting_of_scanning (by rw [ht]; rfl) h.toUnreported
  · exact h.reporting

theorem Pending.seqStep {o : Task} {b s : State} (h : Pending o b s) (i : Instant) : Reporting o b (seqStep i s) := by
  cases htx : s.seq.task.transmitting with
  | true =>
    cases ht : s.seq.task with
    | dueTx more => exact h.seqStep_transmitting ht i
    | _ => rw [ht] at htx; cases htx
  | false =>
    rcases seqStep_cases i s with he | ⟨more, ht, _⟩ | ⟨hr, he⟩ | ⟨hr, he⟩ | ⟨p, st, d, hr, hp, _, he⟩
    case inr.inl => rw [ht] at htx; cases htx
    all_goals rw [he]
    · exact h.reporting
    · exact h.enter htx hr
    · exact h.takeStop htx hr
    · exact h.takeStatus htx hr hp st d

theorem Reporting.onHost {o : Task} {b s : State} (h : Reporting o b s) (i : Instant) :
    Reporting o b (i.onHost State.busyHost s) := by
  unfold Instant.onHost
  split
  · next a _ =>
    rcases busyHost_cases a s with ⟨_, _, he⟩ | ⟨_, he⟩ | ⟨_, he⟩ | he <;> rw [he] <;> exact h.congr rfl
  · exact h

theorem Reporting.busyInstant {o : Task} {b s : State} (h : Reporting o b s) (hb : s.busy = true) {i : Instant}
    (hr : i.reset = false) : Reporting o b (busyInstant i s) := by
  obtain ⟨_, _, _, hbusy, _⟩ := onHost_busyHost_seq i s
  rw [busyInstant_noReset hr]
  exact (((h.onHost i).active (hbusy.trans hb)).seqStep i).congr rfl

/-- An operation waits until it is over and has reported, by induction on the instants of its run. -/
theorem Reporting.run {o : Task} {b s : State} (h : Reporting o b s) {l : List Instant} (hl : ∀ i ∈ l, i.reset = false) :
    Reporting o b (run l s) :=
  run_invariant (P := Reporting o b) (Q := fun i => i.reset = false) rfl (fun _ _ h => h.congr rfl)
    (fun _ _ hr hb h => h.busyInstant hb hr) l hl s h

/-! ### The commands and the tick run -/

theorem unreported_begun {i : Instr} (hi : i ≠ .nop) {s : State} (hb : s.busy = true) :
    Unreported (opOf i) (s.begun i) (s.begun i) where
  busy := by cases i <;> exact hb
  op := begun_op i s
  live := by
    cases i with
    | nop => exact absurd rfl hi
    | _ => exact nofun
  fail := rfl
  kept := fun _ => ⟨rfl, rfl, rfl, rfl⟩
  time := by cases i <;> exact nofun

/-- `ReadRecord` for RDREC: a slot that does not exist is the failure `E_RANGE` (R201). -/
theorem readRecord_reporting {b s : State} (h : Unreported .rdRec b s) (herr : s.err = 0) (i : Half) :
    Reporting .rdRec b (s.readRecord i (State.complete true)) := by
  by_cases hi : s.capacity ≤ i
  · rw [readRecord_outOfRange hi]
    exact Reports.reporting (iff_of_true rfl (by decide : (6 : Byte) ≠ 0)) rfl
  · rw [readRecord_inRange (BitVec.not_le.1 hi)]
    exact h.startXfer (fun _ => herr) ..

/-- `WriteRecord` for WRREC. -/
theorem writeRecord_reporting {b s : State} (h : Unreported .wrRec b s) (herr : s.err = 0) (i : Half) :
    Reporting .wrRec b (s.writeRecord i (State.complete true)) := by
  by_cases hi : s.capacity ≤ i
  · rw [writeRecord_outOfRange hi]
    exact Reports.reporting (iff_of_true rfl (by decide : (6 : Byte) ≠ 0)) rfl
  · rw [writeRecord_inRange (BitVec.not_le.1 hi)]
    exact h.startXfer (fun _ => herr) ..

/-- What an accepted command does before its run: it waits for its first START, or is over at once. -/
theorem commandBody_reporting (i : Instr) {s : State} (hb : s.busy = true) (herr : s.err = 0) :
    Reporting (opOf i) (s.begun i) (commandBody i s) := by
  have hu := fun hi : i ≠ .nop => unreported_begun hi hb
  cases i with
  | nop => exact Reports.reporting (rfl : _ = false) rfl
  | bread | clkread | memread | bwrite | clkwrite | memwrite | gettime | loadcfg | chkdueN | chkdueI =>
    exact (hu nofun).startXfer (fun _ => herr) ..
  | rdrec => exact readRecord_reporting (hu nofun) herr s.ops.idx
  | wrrec => exact writeRecord_reporting (hu nofun) herr s.ops.idx
  | cntvalid => exact countNext_reporting (hu nofun) herr

/-- Over a command's run from an idle block. -/
theorem exec_reporting {s t : State} {i : Instr} (h : Ready s) (hn : NoReset s) (he : exec i s = .next t) :
    Reporting (opOf i) ((s.commandStart (encodeByte i)).begun i) t := by
  rw [exec_ready h] at he
  rw [← Host.Outcome.next.inj he]
  exact (commandBody_reporting i rfl rfl).run hn

/-- Over a pass, whoever starts it. -/
theorem dueBy_reporting {s t : State} {d : DueBy} (h : Ready s) (hn : NoReset s) (hm : d.May s) (he : d.run s = .next t) :
    Reporting .dueTime (d.started s) t := by
  rw [dueBy_run h hm] at he
  rw [← Host.Outcome.next.inj he]
  refine Reporting.run (Pending.reporting ?_) hn
  rw [dueBy_started]
  exact { busy := rfl, op := rfl, live := nofun, fail := rfl, kept := fun _ => ⟨rfl, rfl, rfl, rfl⟩, time := nofun,
          err := fun _ => rfl, engine := fun _ => .of_live rfl }

/-- Settles O42: an operation reports by its kind when it is over, and has not touched `FAIL` before. -/
theorem failFlag : Obligations.FailFlag := by
  refine ⟨fun s t i h hn he hb => ?_, fun s t d h hn hm he hb => ?_, fun s t i h hn he hb => ?_,
    fun s t d h hn hm he hb => ?_⟩
  · have hreports := (exec_reporting h hn he).reported hb
    cases i with
    | chkdueN | chkdueI => exact fun hf => (hreports.1 hf).2.1
    | _ => exact hreports
  · have hreports := (dueBy_reporting h hn hm he).reported hb
    rw [dueBy_started] at hreports
    exact hreports
  · exact ((exec_reporting h hn he).active hb).fail.trans (by cases i <;> rfl)
  · exact ((dueBy_reporting h hn hm he).active hb).fail.trans (by rw [dueBy_started])

end Sys2Proof.Machine
end

section
/-! RDREC and WRREC (R201 to R203): the range check before any primitive, and the whole next state of an index in range. -/

namespace Sys2Proof.Machine

/-! ### Out of range -/

/-- RDREC and WRREC of a slot that does not exist: `E_RANGE`, and nothing is asked of the bus (R201). -/
theorem accepted_outOfRange {s : State} {i : Instr} (hi : i = .rdrec ∨ i = .wrrec) (h : s.capacity ≤ s.ops.idx) :
    s.accepted i = State.complete true { (s.commandStart (encodeByte i)).begun i with err := 6 } := by
  rcases hi with rfl | rfl
  · exact readRecord_outOfRange (s := (s.commandStart (encodeByte .rdrec)).begun .rdrec) h _
  · exact writeRecord_outOfRange (s := (s.commandStart (encodeByte .wrrec)).begun .wrrec) h _

/-- An operation that completes before any primitive leaves `BUSY`, the engine and its place in the pseudocode as an idle
block has them. -/
theorem exec_outOfRange {s : State} {i : Instr} (hr : Ready s) (hi : i = .rdrec ∨ i = .wrrec)
    (h : s.capacity ≤ s.ops.idx) :
    exec i s = .next { s with cmd := encodeByte i, src := false, fail := true, err := 6 } := by
  have hseq : { s.seq with task := .idle } = s.seq := by rw [← hr.task]
  have hbte : { s.bte with pstate := .idle } = s.bte := by rw [← hr.pstate]
  have hend : State.complete true { (s.commandStart (encodeByte i)).begun i with err := 6 } =
      { s with cmd := encodeByte i, busy := false, src := false, fail := true, err := 6
               bte := { s.bte with pstate := .idle }, seq := { s.seq with task := .idle } } := by
    rcases hi with rfl | rfl <;> rfl
  rw [exec_ready hr, accepted_outOfRange hi h, hend, hseq, hbte, ← hr.busy, run_idle (by exact hr.busy)]
  rfl

/-- Settles O27: the range check of both commands, and the offset of a slot in range. -/
theorem rangeCheck : Obligations.RangeCheck := by
  refine ⟨fun s hr h => ⟨exec_outOfRange hr (.inl rfl) h, exec_outOfRange hr (.inr rfl) h⟩, fun s h => ?_,
    fun s hcap hidx => ?_⟩
  · rw [h]
    exact BitVec.le_def.2 (Nat.zero_le _)
  · have hlt : s.ops.idx.toNat < 6553 := Nat.lt_of_lt_of_le (BitVec.lt_def.1 hidx) (BitVec.le_def.1 hcap)
    exact ⟨by omega, toNat_recOffset (Nat.le_of_lt hlt)⟩

/-! ### In range -/

/-- A record operation sees that a transaction of ten bytes succeeded (R202). -/
theorem recordResult_ok {s : State} (h : s.bte.count = 10) : recordResult .ok s = (s, .ok) := if_pos h

/-- The record command whose transaction of the right length is over completes (R202, R203). -/
theorem finish_ok_record {s : State} (h : s.seq.task = .wrRec ∨ (s.seq.task = .rdRec ∧ s.bte.count = 10)) :
    finish .ok s = s.complete false := by
  rcases h with ht | ⟨ht, hcount⟩ <;> rw [finish, ht]
  · rfl
  · rw [finishRdRec, recordResult_ok hcount]

/-- RDREC and WRREC of a slot that exists, on a responsive bus (R202, R203). -/
theorem exec_record {s : State} {i : Instr} {x : Xfer} {st st2 : Byte} {ds : List Byte} {rest : List Instant}
    (hr : Ready s) (hi : (i = .rdrec ∧ x.len = 10) ∨ i = .wrrec) (hx : s.single? i = some x) (hs : isStart st = true)
    (hs2 : x.kind = .rd → isStart st2 = true) (hd : x.data s ds) (hin : s.env.inputs = x.trace st st2 ds ++ rest) :
    exec i s = .next
      { s.ended (encodeByte i) (s.bte.done x.kind x.dev x.aw x.off x.len 0) (x.prims st st2 ds) rest with
        dbuf := x.dbuf ds s.dbuf } := by
  rw [exec_single hr hx hs hs2 hd hin, hr.ended_eq]
  rcases hi with ⟨rfl, hlen⟩ | rfl
  · rw [finish_ok_record (.inr ⟨rfl, hlen⟩), run_idle (by rfl)]
    rfl
  · rw [finish_ok_record (.inl rfl), run_idle (by rfl)]
    rfl

theorem single?_rdrec {s : State} (h : s.ops.idx < s.capacity) :
    s.single? .rdrec = some ⟨.rd, s.cfg.memDev, s.memAw, recOffset s.ops.idx, 10⟩ := if_pos h

theorem single?_wrrec {s : State} {n : Byte} (h : s.ops.idx < s.capacity) (hn : (if s.dbufGet 0 = 0 then 1 else 10) = n) :
    s.single? .wrrec = some ⟨.wr, s.cfg.memDev, s.memAw, recOffset s.ops.idx, n⟩ := by
  rw [← hn]
  exact if_pos h

theorem length_dbufTake (s : State) (n : Nat) : (s.dbufTake n).length = n := by simp [State.dbufTake]

/-- WRREC of `n` bytes: the first `n` of `DBUF` are sent. -/
theorem exec_wrrec {s : State} {st n : Byte} {rest : List Instant} (hr : Ready s) (hs : isStart st = true)
    (hidx : s.ops.idx < s.capacity) (hn : (if s.dbufGet 0 = 0 then 1 else 10) = n)
    (hin : s.env.inputs = writeTrace st s.memAw n.toNat ++ rest) :
    exec .wrrec s = .next
      (s.ended 0x31 (s.bte.done .wr s.cfg.memDev s.memAw (recOffset s.ops.idx) n 0)
        (writePrims st s.cfg.memDev s.memAw (recOffset s.ops.idx) (s.dbufTake n.toNat)) rest) :=
  exec_record (st2 := stStart) hr (.inr rfl) (single?_wrrec hidx hn) hs nofun ⟨length_dbufTake s _, fun _ => rfl⟩
    (by rw [hin, Xfer.trace, length_dbufTake])

/-- Settles O26: the one transaction of each command; the one byte WRREC sends of an invalid record is its 0. -/
theorem recordCommandsComplete : Obligations.RecordCommandsComplete := by
  intro s st st2 rest hr hs hs2 hidx
  refine ⟨fun ds hl hin => ?_, fun hzero hin => ?_, fun hne hin => ?_⟩
  · exact exec_record hr (.inl ⟨rfl, rfl⟩) (single?_rdrec hidx) hs (fun _ => hs2) ⟨hl, nofun⟩ hin
  · have hsent : s.dbufTake 1 = [0] := by rw [← hzero]; rfl
    have hexec := exec_wrrec (n := 1) hr hs hidx (if_pos hzero) hin
    rw [← hsent]
    exact hexec
  · exact exec_wrrec (n := 10) hr hs hidx (if_neg hne) hin

end Sys2Proof.Machine
end

section
/-! The failure codes (R272): what stands in `ERR` while an operation is under way, by what it asks of the bus. A record
operation's transactions have ten bytes, so that none is incomplete (R205), and a scan stands on a slot that exists, so
that `E_RANGE` is left to an index outside the store and to a pass over an empty one (R201, R231). -/

namespace Sys2Proof.Machine

/-! ### One step of the sequencer -/

/-- What a transaction that is over leaves in the engine and in `ERR`, its length and `ERR` before being `n` and `e`
(R131, R150, R151). -/
def XferResult.Left (r : XferResult) (n e : Byte) (u : State) : Prop :=
  match r with
  | .ok => u.err = e ∧ u.bte.count = n
  | .failed => 1 ≤ u.err ∧ u.err ≤ 4

/-- A step of an operation whose transaction is under way: the engine goes on, or the transaction is over and the operation
acts on the result. -/
theorem seqStep_running (i : Instant) {s : State} (htx : s.seq.task.transmitting = false) (hrun : s.bte.Running) :
    ∃ u, EngineStep s u ∧
      ((seqStep i s = u ∧ u.err = s.err ∧ u.bte.Running) ∨
        ∃ r, seqStep i s = finish r u ∧ r.Left s.bte.xlen s.err u) := by
  rcases seqStep_cases i s with he | ⟨more, ht, _⟩ | ⟨hr, he⟩ | ⟨hr, he⟩ | ⟨p, st, d, hr, hp, _, he⟩
  · exact ⟨s, .refl s, .inl ⟨he, rfl, hrun⟩⟩
  · rw [ht] at htx
    cases htx
  · refine ⟨_, engineStep_enter hr, .inl ⟨he, by rw [enter_frame], ?_⟩⟩
    rcases enter_pstate s.bte.pstate s with ⟨_, _, hen⟩ | ⟨_, hen⟩ <;> rw [hen]
    · exact ⟨nofun, nofun⟩
    · exact hrun
  · refine ⟨_, (engineStep_bteStop (s.logPrim ⟨.stop, none, none⟩)).of_logPrim, .inr ⟨_, he, ?_⟩⟩
    rcases bteStop_cases (s.logPrim ⟨.stop, none, none⟩) with ⟨_, hs⟩ | ⟨hps, hs⟩ <;> rw [hs]
    · exact ⟨rfl, rfl⟩
    · exact hrun.code ((pstate_of_request_stop hr).resolve_left hps)
  · obtain ⟨hl, hd⟩ := live_of_request hr hp
    refine ⟨_, (engineStep_bteStatus st d (s := s.logPrim ⟨p, some st, p.returns d⟩) hl hd).of_logPrim, ?_⟩
    rcases bteStatus_result st d (s := s.logPrim ⟨p, some st, p.returns d⟩) hl with ⟨hn, herr, hgo⟩ | ⟨hs, herr, _⟩
    · exact .inl ⟨he.trans (takeStatus_none hn), herr, hgo⟩
    · refine .inr ⟨.failed, he.trans (takeStatus_some hs), ?_⟩
      rw [XferResult.Left, herr]
      exact ⟨by decide, by decide⟩

/-! ### The codes of an operation -/

/-- The operations whose transactions are record reads. -/
def Task.ReadsRecord (k : Task) : Prop := k = .rdRec ∨ k = .cntValid ∨ ∃ more, k = .dueScan more

/-- The codes the operation `o` may leave in `ERR` once its transaction has begun: a pass may find a bad time, and, over an
empty store, no slot (R272). -/
def State.Codes (o : Task) (t : State) : Prop :=
  t.err ≤ 4 ∨ (o = .dueTime ∧ (t.err = 7 ∨ (t.err = 6 ∧ t.capacity = 0)))

/-- The cursor of a pass is inside the store, or the store is empty and nothing has been scanned (R39). -/
def State.Slotted (t : State) : Prop :=
  t.seq.task.op = .dueTime → t.cursor.nextIdx < t.capacity ∨ (t.capacity = 0 ∧ t.seq.task = .dueTime)

/-- The operation `o` waits for the bus or for the transmit sink. -/
structure Coding (o : Task) (t : State) : Prop where
  op : t.seq.task.op = o
  live : t.seq.task ≠ .idle
  err : t.err ≤ 4
  len : t.seq.task.ReadsRecord → t.bte.xlen = 10
  slot : t.Slotted
  engine : t.seq.task.transmitting = false → t.bte.Running

/-- The operation waits, or is over, and its code is one of those it may leave. -/
structure Coded (o : Task) (t : State) : Prop where
  active : t.busy = true → Coding o t
  codes : t.Codes o

theorem Coding.coded {o : Task} {t : State} (h : Coding o t) : Coded o t := ⟨fun _ => h, .inl h.err⟩

theorem State.Codes.coded {o : Task} {t : State} (h : t.Codes o) (hb : t.busy = false) : Coded o t :=
  ⟨fun hb' => absurd (hb.symm.trans hb') nofun, h⟩

/-- What the host, TICK and the listed instants change is no part of it. -/
theorem Coded.congr {o : Task} {t u : State} (h : Coded o t)
    (he : u = { t with tickp := u.tickp, ovr := u.ovr, tickEn := u.tickEn, halt := u.halt,
                       env := { t.env with inputs := u.env.inputs, reads := u.env.reads, draws := u.env.draws } }) :
    Coded o u := by
  rw [he]
  exact ⟨fun hb => { h.active hb with }, h.codes⟩

/-- The operation `o` has control, its transaction over and no failure but a transaction's in `ERR`. -/
structure InControl (o : Task) (s : State) : Prop where
  op : s.seq.task.op = o
  live : s.seq.task ≠ .idle
  err : s.err ≤ 4
  slot : s.Slotted

/-- A transaction begins (R133). -/
theorem InControl.startXfer {o : Task} {s : State} (h : InControl o s) (kind : XKind) (dev : DevAddr) (aw : BitVec 2)
    (off : Half) {n : Byte} (hn : s.seq.task.ReadsRecord → n = 10) : Coded o (s.startXfer kind dev aw off n) :=
  Coding.coded { h with len := hn, engine := fun _ => .of_live rfl }

/-- `ReadRecord` of a slot that exists (R202). -/
theorem InControl.readRecord {o : Task} {s : State} (h : InControl o s) {i : Half} (hi : i < s.capacity)
    (out : State → State) : Coded o (s.readRecord i out) := by
  rw [readRecord_inRange hi]
  exact h.startXfer _ _ _ _ fun _ => rfl

/-- `WriteRecord` of a slot that exists (R203). -/
theorem InControl.writeRecord {s : State} (h : InControl .wrRec s) (ht : s.seq.task = .wrRec) {i : Half}
    (hi : i < s.capacity) (out : State → State) : Coded .wrRec (s.writeRecord i out) := by
  rw [writeRecord_inRange hi]
  refine h.startXfer _ _ _ _ ?_
  rw [ht]
  rintro (hk | hk | ⟨_, hk⟩) <;> cases hk

/-! ### The scans of a pass -/

/-- A scan has control. -/
structure Scanning (s : State) : Prop where
  err : s.err ≤ 4
  slot : s.cursor.nextIdx < s.capacity

theorem Scanning.inControl {s : State} (h : Scanning s) {more : Bool} (ht : s.seq.task = .dueScan more) :
    InControl .dueTime s :=
  ⟨by rw [ht]; rfl, by rw [ht]; nofun, h.err, fun _ => .inl h.slot⟩

/-- The slot under the cursor exists, so that its fetch raises nothing (R231). -/
theorem Scanning.fetch {s : State} (h : Scanning s) {more : Bool} (ht : s.seq.task = .dueScan more)
    (out : State → State) : Coded .dueTime (s.readRecord s.cursor.nextIdx out) :=
  (h.inControl ht).readRecord h.slot out

theorem Scanning.endScan {s : State} (h : Scanning s) (more : Bool) : Coded .dueTime (s.endScan more) := by
  cases more with
  | true => exact Scanning.fetch (s := s.enterScan false 0 s.seq.cur) ⟨h.err, h.slot⟩ rfl _
  | false => exact State.Codes.coded (.inl h.err) rfl

theorem Scanning.advance {s : State} (h : Scanning s) {more : Bool} (ht : s.seq.task = .dueScan more) :
    Coded .dueTime (s.advance more) := by
  have hnext : Scanning { s with cursor := { s.cursor with nextIdx := nextAfter s.capacity s.cursor.nextIdx } } :=
    ⟨h.err, nextAfter_lt h.slot⟩
  rcases advance_cases more s with ⟨_, he⟩ | ⟨_, he⟩ <;> rw [he]
  · exact hnext.endScan more
  · exact hnext.fetch ht _

theorem Scanning.scanInvalid {s : State} (h : Scanning s) {more : Bool} (ht : s.seq.task = .dueScan more) :
    Coded .dueTime (s.scanInvalid more) := by
  have hslot := h.slot
  have hfirst : Scanning { s with cursor := { s.cursor with nextIdx := 0 } } :=
    ⟨h.err, show (0 : Half) < s.capacity by bv_omega⟩
  rcases scanInvalid_cases more s with ⟨_, he⟩ | ⟨_, _, he⟩ | ⟨_, _, he⟩ <;> rw [he]
  · exact h.endScan more
  · exact hfirst.endScan more
  · exact hfirst.fetch ht _

theorem Scanning.transmit {s : State} (h : Scanning s) (more : Bool) : Coded .dueTime (s.transmit more) := by
  refine Coding.coded ⟨rfl, nofun, h.err, ?_, fun _ => .inl h.slot, nofun⟩
  rintro (hk | hk | ⟨_, hk⟩) <;> cases hk

theorem Scanning.scanRecord {s : State} (h : Scanning s) {more : Bool} (ht : s.seq.task = .dueScan more) :
    Coded .dueTime (s.scanRecord more) := by
  rcases scanRecord_cases more s with ⟨_, he⟩ | ⟨_, _, he⟩ | ⟨_, _, _, _, he⟩ | ⟨_, _, _, he⟩ <;> rw [he]
  · exact h.scanInvalid ht
  · exact h.endScan more
  · exact h.transmit more
  · exact h.advance ht

theorem Scanning.txDone {s : State} (h : Scanning s) (more : Bool) : Coded .dueTime (s.txDone more) := by
  unfold State.txDone
  refine Scanning.advance ?_ rfl
  exact ⟨h.err, h.slot⟩

/-- Steps 3 to 5 of a pass: over an empty store the first fetch finds no slot (R224, R231). -/
theorem windows_coded {s : State} (herr : s.err ≤ 4) (hslot : s.cursor.nextIdx < s.capacity ∨ s.capacity = 0) :
    Coded .dueTime s.windows := by
  have hscan : ∀ (more : Bool) (wfrom wto : Minute), Coded .dueTime
      ((State.enterScan more wfrom wto { s with seq := { s.seq with cur := s.dt.minuteOfDay } }).fetch more) := by
    intro more wfrom wto
    rcases hslot with hlt | hempty
    · exact Scanning.fetch
        (s := State.enterScan more wfrom wto { s with seq := { s.seq with cur := s.dt.minuteOfDay } }) ⟨herr, hlt⟩ rfl _
    · obtain ⟨q, _, _, _, he⟩ :=
        fetch_outOfRange
          (s := State.enterScan more wfrom wto { s with seq := { s.seq with cur := s.dt.minuteOfDay } })
          (show s.capacity ≤ s.cursor.nextIdx by rw [hempty]; exact BitVec.le_def.2 (Nat.zero_le _)) more
      rw [he]
      exact State.Codes.coded (.inr ⟨rfl, .inr ⟨rfl, hempty⟩⟩) rfl
  unfold State.windows
  dsimp only
  split
  · exact State.Codes.coded (.inl herr) rfl
  · split
    · exact hscan false _ _
    · exact hscan true _ _

/-! ### The end of a transaction -/

/-- A record operation sees the result of its ten bytes as it is: `E_INCOMPLETE` is never raised (R205). -/
theorem recordResult_eq {r : XferResult} {s : State} (h : r = .ok → s.bte.count = 10) : recordResult r s = (s, r) := by
  cases r with
  | ok => exact recordResult_ok (h rfl)
  | failed => rfl

theorem countNext_coded {s : State} (h : InControl .cntValid s) : Coded .cntValid s.countNext := by
  rcases countNext_cases s with ⟨_, he⟩ | ⟨_, he⟩ <;> rw [he]
  · exact h.startXfer _ _ _ _ fun _ => rfl
  · exact State.Codes.coded (.inl h.err) rfl

/-- The operation whose transaction is over ends with a code it may leave, or goes on (R275 (3)). -/
theorem finish_coded {o : Task} {s : State} (h : InControl o s) (htx : s.seq.task.transmitting = false) {r : XferResult}
    (hlen : r = .ok → s.seq.task.ReadsRecord → s.bte.count = 10) : Coded o (finish r s) := by
  obtain rfl := h.op
  have hslot := h.slot
  have hover : ∀ t : State, t.err = s.err → t.busy = false → Coded s.seq.task.op t := fun t he hb =>
    State.Codes.coded (.inl (he ▸ h.err)) hb
  rw [finish]
  generalize ht : s.seq.task = k at h htx hlen hover ⊢
  cases k with
  | idle => exact absurd ht h.live
  | dueTx more => cases htx
  | transfer | getTime | loadCfg | wrRec => cases r <;> exact hover _ rfl rfl
  | rdRec =>
    dsimp only
    rw [finishRdRec, recordResult_eq fun hr => hlen hr (.inl rfl)]
    cases r <;> exact hover _ rfl rfl
  | cntValid =>
    dsimp only
    rw [finishCount, recordResult_eq fun hr => hlen hr (.inr (.inl rfl))]
    cases r with
    | failed => exact hover _ rfl rfl
    | ok =>
      dsimp only
      split
      · exact countNext_coded (s := { s with seq := { s.seq with cidx := s.seq.cidx + 1 } })
          ⟨by simp [ht, Task.op], by simp [ht], h.err, fun hd => by simp [ht, Task.op] at hd⟩
      · exact hover _ rfl rfl
  | dueTime =>
    cases r with
    | failed => exact hover _ rfl rfl
    | ok =>
      dsimp only
      rw [finishDueTime]
      split
      · exact State.Codes.coded (.inr ⟨rfl, .inl rfl⟩) rfl
      · exact windows_coded (s := s.latchTime) h.err ((hslot (by rw [ht]; rfl)).imp_right And.left)
  | dueScan more =>
    have hscan : Scanning s := ⟨h.err, (hslot (by rw [ht]; rfl)).resolve_right fun hn => by rw [ht] at hn; cases hn.2⟩
    dsimp only
    rw [finishScan, recordResult_eq fun hr => hlen hr (.inr (.inr ⟨more, rfl⟩))]
    cases r with
    | failed => exact hscan.endScan more
    | ok => exact hscan.scanRecord ht

/-! ### An instant, a run -/

theorem Coding.seqStep {o : Task} {s : State} (h : Coding o s) (i : Instant) : Coded o (seqStep i s) := by
  cases htx : s.seq.task.transmitting with
  | true =>
    cases ht : s.seq.task with
    | dueTx more =>
      have hslot : s.cursor.nextIdx < s.capacity :=
        (h.slot (by rw [ht]; rfl)).resolve_right fun hn => by rw [ht] at hn; cases hn.2
      obtain rfl : Task.dueTime = o := by rw [← h.op, ht]; rfl
      rw [seqStep_transmitting ht]
      split
      · exact Scanning.txDone ⟨h.err, hslot⟩ more
      · exact h.coded
    | _ => rw [ht] at htx; cases htx
  | false =>
    obtain ⟨u, he, ⟨hs, herr, hrun⟩ | ⟨r, hs, hleft⟩⟩ := seqStep_running i htx (h.engine htx)
    · have hu : Coding o u := by
        have hxlen := he.xlen
        rw [he.frame] at hxlen herr hrun ⊢
        exact { h with err := by rw [herr]; exact h.err, len := fun hk => hxlen.trans (h.len hk)
                       engine := fun _ => hrun }
      rw [hs]
      exact hu.coded
    · have hu : InControl o u := by
        have herr : u.err ≤ 4 := by
          cases r with
          | ok => exact hleft.1 ▸ h.err
          | failed => exact hleft.2
        rw [he.frame] at herr ⊢
        exact { h with err := herr }
      rw [hs]
      refine finish_coded hu (he.seq ▸ htx) fun hr hk => ?_
      subst hr
      exact hleft.2.trans (h.len (he.seq ▸ hk))

theorem Coded.onHost {o : Task} {s : State} (h : Coded o s) (i : Instant) : Coded o (i.onHost State.busyHost s) := by
  unfold Instant.onHost
  split
  · next a _ =>
    rcases busyHost_cases a s with ⟨_, _, he⟩ | ⟨_, he⟩ | ⟨_, he⟩ | he <;> rw [he] <;> exact h.congr rfl
  · exact h

theorem Coded.busyInstant {o : Task} {s : State} (h : Coded o s) (hb : s.busy = true) {i : Instant}
    (hr : i.reset = false) : Coded o (busyInstant i s) := by
  obtain ⟨_, _, _, hbusy, _⟩ := onHost_busyHost_seq i s
  rw [busyInstant_noReset hr]
  exact (((h.onHost i).active (hbusy.trans hb)).seqStep i).congr rfl

theorem Coded.run {o : Task} {s : State} (h : Coded o s) {l : List Instant} (hl : ∀ i ∈ l, i.reset = false) :
    Coded o (run l s) :=
  run_invariant (P := Coded o) (Q := fun i => i.reset = false) rfl (fun _ _ h => h.congr rfl)
    (fun _ _ hr hb h => h.busyInstant hb hr) l hl s h

/-! ### The commands and the tick run -/

theorem inControl_begun {s : State} {i : Instr} (hnop : i ≠ .nop) (herr : s.err = 0)
    (hslot : s.cursor.nextIdx < s.capacity ∨ s.capacity = 0) : InControl (opOf i) (s.begun i) where
  op := begun_op i s
  live := by
    cases i with
    | nop => exact absurd rfl hnop
    | _ => exact nofun
  err := by
    have hle : s.err ≤ 4 := herr ▸ (by decide : (0 : Byte) ≤ 4)
    cases i <;> exact hle
  slot := by
    cases i with
    | chkdueN | chkdueI => exact fun _ => hslot.imp_right fun hempty => ⟨hempty, rfl⟩
    | _ => exact nofun

/-- A command whose record, where it has one, is in the store begins with no code. -/
theorem commandBody_coded {s : State} {i : Instr} (hnop : i ≠ .nop) (herr : s.err = 0)
    (hslot : s.cursor.nextIdx < s.capacity ∨ s.capacity = 0)
    (hidx : i = .rdrec ∨ i = .wrrec → s.ops.idx < s.capacity) : Coded (opOf i) (commandBody i s) := by
  have hbegun := inControl_begun hnop herr hslot
  have hno : ∀ k : Task, k = .transfer ∨ k = .getTime ∨ k = .loadCfg ∨ k = .dueTime → ¬ k.ReadsRecord := by
    rintro k (rfl | rfl | rfl | rfl) (hk | hk | ⟨_, hk⟩) <;> cases hk
  cases i with
  | nop => exact absurd rfl hnop
  | bread | bwrite | clkread | clkwrite | memread | memwrite | gettime | loadcfg | chkdueN | chkdueI =>
    exact hbegun.startXfer _ _ _ _ fun hk => absurd hk (hno _ (by simp [State.begun]))
  | rdrec => exact hbegun.readRecord (hidx (.inl rfl)) _
  | wrrec => exact hbegun.writeRecord rfl (hidx (.inr rfl)) _
  | cntvalid => exact countNext_coded hbegun

/-- Over a command's run from an idle block. -/
theorem exec_coded {s t : State} {i : Instr} (h : Ready s) (hn : NoReset s) (hnop : i ≠ .nop)
    (hslot : s.cursor.nextIdx < s.capacity ∨ s.capacity = 0)
    (hidx : i = .rdrec ∨ i = .wrrec → s.ops.idx < s.capacity) (he : exec i s = .next t) : Coded (opOf i) t := by
  rw [exec_ready h] at he
  rw [← Host.Outcome.next.inj he]
  exact (commandBody_coded (s := s.commandStart (encodeByte i)) hnop rfl hslot hidx).run hn

/-- Over a pass, whoever starts it. -/
theorem dueBy_coded {s t : State} {d : DueBy} (h : Ready s) (hn : NoReset s) (hm : d.May s)
    (hslot : s.cursor.nextIdx < s.capacity ∨ s.capacity = 0) (he : d.run s = .next t) :
    t.err ≤ 4 ∨ t.err = 7 ∨ (t.err = 6 ∧ s.capacity = 0) := by
  have hstart : Coded .dueTime (d.started s) := by
    rw [dueBy_started]
    exact Coding.coded
      { op := rfl, live := nofun, err := (by decide : (0 : Byte) ≤ 4), len := by rintro (hk | hk | ⟨_, hk⟩) <;> cases hk
        slot := fun _ => hslot.imp_right fun hempty => ⟨hempty, rfl⟩, engine := fun _ => .of_live rfl }
  have hcap : (run s.env.inputs (d.started s)).capacity = s.capacity := by
    rw [((started_frame d s hn).config nofun).1, dueBy_started]
  rw [dueBy_run h hm] at he
  rw [← Host.Outcome.next.inj he, ← hcap]
  exact (hstart.run hn).codes.imp_right And.right

/-- Settles O41: NOP and ILLEGAL leave one code each; the other operations by what they raise over their run. -/
theorem errorCodes : Obligations.ErrorCodes := by
  refine ⟨fun s t c hr he => ?_, fun s t i hr hn hslot he => ?_, fun s t d hr hn hslot hm he => ?_⟩
  · rw [execIllegal, accept_ready hr.busy hr.halt, runSeq_idle rfl] at he
    rw [← Host.Outcome.next.inj he]
    rfl
  · have hle : i ≠ .nop → opOf i ≠ .dueTime → (i = .rdrec ∨ i = .wrrec → s.ops.idx < s.capacity) → t.err ≤ 4 :=
      fun hnop hop hidx => (exec_coded hr hn hnop hslot hidx he).codes.resolve_right fun hc => hop hc.1
    cases i with
    | nop =>
      rw [exec_ready hr, run_idle rfl] at he
      rw [← Host.Outcome.next.inj he]
      rfl
    | bread | bwrite | clkread | clkwrite | memread | memwrite | gettime | loadcfg | cntvalid =>
      exact hle nofun nofun nofun
    | rdrec | wrrec =>
      by_cases hidx : s.capacity ≤ s.ops.idx
      · rw [exec_outOfRange hr (by simp) hidx] at he
        rw [← Host.Outcome.next.inj he]
        exact .inr rfl
      · exact .inl (hle nofun nofun fun _ => BitVec.not_le.1 hidx)
    | chkdueN => exact dueBy_coded (d := .normal) hr hn nofun hslot he
    | chkdueI => exact dueBy_coded (d := .init) hr hn nofun hslot he
  · exact dueBy_coded hr hn hm hslot he

end Sys2Proof.Machine
end

section
/-! A record read that fails (R204, R231): an operation's Read and a MEMREAD of the same bytes, answered alike, run in
lockstep, whatever else the two blocks hold, until the MEMREAD fails; then the operation gets the same failure. -/

namespace Sys2Proof.Machine

/-! ### The engine's own registers -/

/-- The engine with other values in the registers that a transaction does not look at before it writes them. -/
def Bte.leftover (b : Bte) (n st : Byte) (c : FailCode) : Bte := { b with count := n, bstat := st, xcode := c }

/-- What an inspected status writes of the engine's own registers (R132, R134, R137, R146, R149). -/
def Bte.observed (st : Byte) (b : Bte) : Bte :=
  match b.pstate with
  | .start | .rstart => { b with bstat := st, owned := if isStart st then true else b.owned }
  | .slaw => { b with bstat := st, iter := if st = stSlawNack then b.iter + 1 else b.iter }
  | .rdata => { b with bstat := st, bidx := if st = b.expected then b.bidx + 1 else b.bidx }
  | .wdata => { b with bstat := st, bidx := if st = stTxAck then b.bidx + 1 else b.bidx }
  | _ => { b with bstat := st }

theorem observe_bte_eq (st d : Byte) (s : State) : (s.observe st d).bte = s.bte.observed st := by
  cases hp : s.bte.pstate <;> simp only [State.observe, Bte.observed, hp]
  case start | rstart | slaw | wdata => split <;> rfl
  case rdata =>
    by_cases he : st = s.bte.expected
    · rw [if_pos he, if_pos (by exact he)]
    · rw [if_neg he, if_neg (by exact he)]

theorem observed_leftover (b : Bte) (n m : Byte) (c : FailCode) (st : Byte) :
    (b.leftover n m c).observed st = (b.observed st).leftover n st c := by
  obtain ⟨pstate⟩ := b
  cases pstate <;> rfl

/-- `PSTATE` after `Continue(p)`. -/
def Bte.entered (p : PState) (b : Bte) : Bte :=
  { b with pstate := if (p = .rdata ∨ p = .wdata) ∧ b.atEnd = true then .stopOk else p }

theorem enter_bte_eq (p : PState) (s : State) : (s.enter p).bte = s.bte.entered p := by
  unfold State.enter Bte.entered
  split <;> rfl

theorem entered_pstate (p : PState) (b : Bte) : (b.entered p).pstate = .stopOk ∨ (b.entered p).pstate = p := by
  unfold Bte.entered
  split
  · exact .inl rfl
  · exact .inr rfl

/-! ### Two engines at the same Read -/

/-- Two engines at the same place of the same Read: what the last transaction left in `COUNT`, in `BSTAT` and in the code
of an abort may differ until this one writes it. -/
structure Bte.SameRead (a b : Bte) : Prop where
  eq : ∃ n st c, b = a.leftover n st c
  seen : a.pstate ≠ .start → b.bstat = a.bstat
  code : a.pstate = .stopFail → b.xcode = a.xcode
  kind : a.xkind = .rd
  noWrite : a.pstate ≠ .wdata

/-- Two blocks whose Reads have failed alike. -/
structure SameFailure (u v : State) : Prop where
  err : v.err = u.err
  idle : u.bte.pstate = .idle
  bte : ∃ c, v.bte = u.bte.leftover u.bte.count u.bte.bstat c

theorem request_sameRead {a b : State} (h : a.bte.SameRead b.bte) : b.request = a.request := by
  obtain ⟨n, m, c, he⟩ := h.eq
  cases hp : a.bte.pstate with
  | wdata => exact absurd hp h.noWrite
  | rdata => simp only [State.request, he, hp, Bte.leftover]; rfl
  | _ => simp only [State.request, he, hp, Bte.leftover]

/-- `Continue` leads a Read into no state of a Write. -/
theorem verdict_cont_reading {cfg : Params} {b : Bte} {st : Byte} {p : PState} (hl : b.pstate.live = true)
    (h : verdict cfg b st = .cont p) (hk : b.xkind = .rd) (hw : b.pstate ≠ .wdata) : p ≠ .wdata := by
  rcases verdict_cont_cases hl h with ⟨_, rfl⟩ | ⟨_, _, rfl | rfl⟩ | ⟨_, rfl⟩ | ⟨_, _, rfl⟩ | ⟨_, hk', _⟩ | ⟨_, rfl⟩ |
    ⟨_, rfl⟩ | ⟨_, rfl⟩ | ⟨hps, _⟩
  case inr.inr.inr.inr.inl => rw [hk] at hk'; cases hk'
  case inr.inr.inr.inr.inr.inr.inr.inr => exact absurd hps hw
  all_goals exact nofun

theorem exitNoStop_bte (s : State) : s.exitNoStop.bte = { s.bte with count := 0, pstate := .idle } := rfl

/-- A status taken by both engines: both go on, or both Reads have failed (R132, R136). -/
theorem bteStatus_sameRead {a b : State} (hcfg : b.cfg = a.cfg) (h : a.bte.SameRead b.bte)
    (hl : a.bte.pstate.live = true) (st d : Byte) :
    ((bteStatus st d a).2 = none ∧ (bteStatus st d b).2 = none ∧
      (bteStatus st d a).1.bte.SameRead (bteStatus st d b).1.bte) ∨
    ((bteStatus st d a).2 = some .failed ∧ (bteStatus st d b).2 = some .failed ∧
      SameFailure (bteStatus st d a).1 (bteStatus st d b).1) := by
  obtain ⟨n, m, c, he⟩ := h.eq
  have hkind : (a.bte.observed st).xkind = .rd := by
    rw [← observe_bte_eq st d, (observe_bte st d a).2.2, h.kind]
  have hob : (b.observe st d).bte = (a.bte.observed st).leftover n st c := by
    rw [observe_bte_eq, he, observed_leftover]
  have hseen : (a.bte.observed st).bstat = st := by
    unfold Bte.observed
    split <;> rfl
  have hverdict : verdict b.cfg b.bte st = verdict a.cfg a.bte st := by rw [hcfg, he]; rfl
  have howned : b.bte.owned = a.bte.owned := by rw [he]; rfl
  have habort : ∀ f : FailCode, ((a.observe st d).abort f).bte.SameRead ((b.observe st d).abort f).bte := by
    intro f
    rw [abort_bte, abort_bte, observe_bte_eq, hob]
    exact ⟨⟨n, st, f, rfl⟩, fun _ => hseen.symm, fun _ => rfl, hkind, nofun⟩
  unfold bteStatus
  rw [hverdict, howned]
  cases hv : verdict a.cfg a.bte st with
  | cont p =>
    refine .inl ⟨rfl, rfl, ?_⟩
    dsimp only
    rw [enter_bte_eq, enter_bte_eq, observe_bte_eq, hob]
    have hlive := (verdict_cont_live hl hv).1
    have hnw := verdict_cont_reading hl hv h.kind h.noWrite
    refine ⟨⟨n, st, c, rfl⟩, fun _ => hseen.symm, fun hp => ?_, hkind, fun hp => ?_⟩ <;>
      rcases entered_pstate p (a.bte.observed st) with hs | hs <;> rw [hs] at hp
    · cases hp
    · rw [hp] at hlive; cases hlive
    · cases hp
    · exact hnw hp
  | restart =>
    refine .inl ⟨rfl, rfl, ?_⟩
    dsimp only
    rw [restart_bte, restart_bte, observe_bte_eq, hob]
    exact ⟨⟨n, st, c, rfl⟩, fun _ => hseen.symm, nofun, hkind, nofun⟩
  | abort f => exact .inl ⟨rfl, rfl, habort f⟩
  | notStart =>
    cases a.bte.owned with
    | true => exact .inl ⟨rfl, rfl, habort .notStart⟩
    | false =>
      refine .inr ⟨rfl, rfl, rfl, rfl, c, ?_⟩
      simp only [Bool.false_eq_true, if_false]
      rw [exitNoStop_bte, exitNoStop_bte, hob, observe_bte_eq]
      simp only [Bte.leftover, hseen]

/-- The STOP taken by both engines: the MEMREAD has succeeded, or both Reads have failed (R150, R151). -/
theorem bteStop_sameRead {a b : State} (h : a.bte.SameRead b.bte) (hr : a.request = some .stop) :
    (bteStop a).2 = .ok ∨
      ((bteStop a).2 = .failed ∧ (bteStop b).2 = .failed ∧ SameFailure (bteStop a).1 (bteStop b).1) := by
  obtain ⟨n, m, c, he⟩ := h.eq
  rcases bteStop_cases a with ⟨_, ha⟩ | ⟨hps, ha⟩
  · exact .inl (by rw [ha])
  · have hfail := (pstate_of_request_stop hr).resolve_left hps
    have hcode : b.bte.xcode = a.bte.xcode := h.code hfail
    have hseen : m = a.bte.bstat := by rw [← h.seen (by rw [hfail]; nofun), he]; rfl
    rcases bteStop_cases b with ⟨hb, _⟩ | ⟨_, hb⟩
    · rw [he] at hb
      exact absurd hb hps
    · rw [ha, hb]
      refine .inr ⟨rfl, rfl, by rw [hcode], rfl, c, ?_⟩
      simp only [he, Bte.leftover, hseen]

/-! ### Two blocks in lockstep -/

/-- `b` is the block `o` with an operation's Read under way or over in it, and what the host and TICK did meanwhile. -/
def Kept (o b : State) : Prop :=
  b = { o with
    tickp := b.tickp, ovr := b.ovr, tickEn := b.tickEn, halt := b.halt, err := b.err, dbuf := b.dbuf, bte := b.bte
    env := { o.env with inputs := b.env.inputs, prims := b.env.prims, reads := b.env.reads, draws := b.env.draws } }

theorem Kept.engineStep {o b u : State} (h : Kept o b) (he : EngineStep b u) : Kept o u := by
  have hf := he.frame
  rw [Kept] at h
  rw [h] at hf
  rw [Kept, hf]

/-- A MEMREAD in `a` and the Read of an operation in `b`, begun in `o`, with the instants `l` to come. -/
structure Abreast (l : List Instant) (o a b : State) : Prop where
  read : a.bte.SameRead b.bte
  cfg : a.cfg = o.cfg
  busy : a.busy = true
  task : a.seq.task = .transfer
  inputs : a.env.inputs = l ∧ b.env.inputs = l
  kept : Kept o b

/-- Both Reads have failed: the MEMREAD is over in `u`, and the operation gets control in `v`. -/
structure ReadFailed (l : List Instant) (o u v : State) : Prop where
  alike : SameFailure u v
  inputs : u.env.inputs = l ∧ v.env.inputs = l
  kept : Kept o v

/-- The two are abreast, or the MEMREAD is over and has succeeded, or it has failed and the operation has acted on the
same failure. -/
def AfterRead (l : List Instant) (tick : Bool) (o a b : State) : Prop :=
  Abreast l o a b ∨ (a.busy = false ∧ a.fail = false) ∨
    (a.busy = false ∧ ∃ v, ReadFailed l o a v ∧ b = State.latchTick tick (finish .failed v))

theorem Abreast.engineStep {l : List Instant} {o a b a' b' : State} (h : Abreast l o a b) (ha : EngineStep a a')
    (hb : EngineStep b b') (hread : a'.bte.SameRead b'.bte) : Abreast l o a' b' where
  read := hread
  cfg := by rw [ha.frame]; exact h.cfg
  busy := ha.busy.trans h.busy
  task := by rw [ha.seq]; exact h.task
  inputs := by rw [ha.frame, hb.frame]; exact h.inputs
  kept := h.kept.engineStep hb

/-- The MEMREAD completes with its failure. -/
theorem Abreast.failed {l : List Instant} {o a b a' b' : State} (h : Abreast l o a b) (ha : EngineStep a a')
    (hb : EngineStep b b') (hsame : SameFailure a' b') :
    AfterRead l false o (finish .failed a') (finish .failed b') := by
  have hidle := hsame.idle
  rw [finish_transfer (s := a') (by rw [ha.seq]; exact h.task)]
  refine .inr (.inr ⟨rfl, b', ⟨⟨hsame.err, rfl, ?_⟩, ?_, h.kept.engineStep hb⟩, by rw [latchTick_false]⟩)
  · have hbte : { a'.bte with pstate := .idle } = a'.bte := by rw [← hidle]
    rw [complete_bte, hbte]
    exact hsame.bte
  · rw [complete_env, ha.frame, hb.frame]
    exact h.inputs

section
variable {l : List Instant} {o a b : State}

theorem Abreast.enter (h : Abreast l o a b) (hr : a.request = none) :
    Abreast l o (a.enter a.bte.pstate) (b.enter b.bte.pstate) := by
  have hrb : b.request = none := (request_sameRead h.read).trans hr
  obtain ⟨n, m, c, he⟩ := h.read.eq
  have hstart : a.bte.pstate ≠ .start := fun hp => by simp [State.request, hp] at hr
  refine h.engineStep (engineStep_enter hr) (engineStep_enter hrb) ?_
  rw [enter_bte_eq, enter_bte_eq]
  refine ⟨⟨n, m, c, by rw [he]; rfl⟩, fun _ => h.read.seen hstart, fun hp => ?_, h.read.kind, fun hp => ?_⟩ <;>
    rcases entered_pstate a.bte.pstate a.bte with hs | hs <;> rw [hs] at hp
  · cases hp
  · exact h.read.code hp
  · cases hp
  · exact h.read.noWrite hp

theorem Abreast.takeStop (h : Abreast l o a b) (hr : a.request = some .stop) :
    AfterRead l false o (takeStop a) (takeStop b) := by
  have ha := (engineStep_bteStop (a.logPrim ⟨.stop, none, none⟩)).of_logPrim
  have hb := (engineStep_bteStop (b.logPrim ⟨.stop, none, none⟩)).of_logPrim
  rw [Machine.takeStop, Machine.takeStop]
  rcases bteStop_sameRead (a := a.logPrim ⟨.stop, none, none⟩) (b := b.logPrim ⟨.stop, none, none⟩) h.read hr with
    hok | ⟨hfa, hfb, hsame⟩
  · rw [hok, finish_transfer (by rw [ha.seq]; exact h.task)]
    exact .inr (.inl ⟨rfl, rfl⟩)
  · rw [hfa, hfb]
    exact h.failed ha hb hsame

theorem Abreast.takeStatus (h : Abreast l o a b) {p : Prim} (hr : a.request = some p) (hp : p ≠ .stop) (st d : Byte) :
    AfterRead l false o (takeStatus p st d a) (takeStatus p st d b) := by
  have hrb : b.request = some p := (request_sameRead h.read).trans hr
  obtain ⟨hl, hd⟩ := live_of_request hr hp
  obtain ⟨hlb, hdb⟩ := live_of_request hrb hp
  have ha := (engineStep_bteStatus st d (s := a.logPrim ⟨p, some st, p.returns d⟩) hl hd).of_logPrim
  have hb := (engineStep_bteStatus st d (s := b.logPrim ⟨p, some st, p.returns d⟩) hlb hdb).of_logPrim
  have hcfg : b.cfg = a.cfg := by rw [h.cfg, h.kept]
  rcases bteStatus_sameRead (a := a.logPrim ⟨p, some st, p.returns d⟩) (b := b.logPrim ⟨p, some st, p.returns d⟩) hcfg
    h.read hl st d with ⟨hna, hnb, hread⟩ | ⟨hfa, hfb, hsame⟩
  · rw [takeStatus_none hna, takeStatus_none hnb]
    exact .inl (h.engineStep ha hb hread)
  · rw [takeStatus_some hfa, takeStatus_some hfb]
    exact h.failed ha hb hsame

theorem Abreast.seqStep (i : Instant) (ho : o.seq.task.transmitting = false) (h : Abreast l o a b) :
    AfterRead l false o (seqStep i a) (seqStep i b) := by
  have hb : b.seq.task.transmitting = false := by rw [h.kept]; exact ho
  rw [seqStep_request (by rw [h.task]; rfl), seqStep_request hb, request_sameRead h.read]
  cases hr : a.request with
  | none => exact .inl (h.enter hr)
  | some p =>
    cases p with
    | stop => exact h.takeStop hr
    | start | send | recvAck | recvNack =>
      cases i.bus with
      | none => exact .inl h
      | some w => exact h.takeStatus hr nofun w.1 w.2

/-! ### Instants and runs -/

/-- All that a host access to a busy block can change (R53). -/
theorem onHost_busyHost_eq (i : Instant) (s : State) :
    i.onHost State.busyHost s =
      { s with
        ovr := (i.onHost State.busyHost s).ovr, tickEn := (i.onHost State.busyHost s).tickEn
        halt := (i.onHost State.busyHost s).halt
        env := { s.env with reads := (i.onHost State.busyHost s).env.reads
                            draws := (i.onHost State.busyHost s).env.draws } } := by
  unfold Instant.onHost
  split
  · next h _ => rcases busyHost_cases h s with ⟨a, v, he⟩ | ⟨a, he⟩ | ⟨v, he⟩ | he <;> rw [he] <;> rfl
  · rfl

theorem Abreast.onHost (h : Abreast l o a b) (i : Instant) :
    Abreast l o (i.onHost State.busyHost a) (i.onHost State.busyHost b) := by
  have hkept := h.kept
  rw [Kept] at hkept
  rw [onHost_busyHost_eq i a, onHost_busyHost_eq i b]
  exact ⟨h.read, h.cfg, h.busy, h.task, h.inputs, by rw [hkept]; rfl⟩

theorem AfterRead.latchTick (h : AfterRead l false o a b) (tick : Bool) :
    AfterRead l tick o (a.latchTick tick) (b.latchTick tick) := by
  rcases h with h | hok | ⟨hover, v, hfailed, rfl⟩
  · have hkept := h.kept
    rw [Kept] at hkept
    exact .inl ⟨h.read, h.cfg, h.busy, h.task, h.inputs, by rw [hkept]; rfl⟩
  · exact .inr (.inl hok)
  · obtain ⟨⟨herr, hidle, hbte⟩, hinputs, hkept⟩ := hfailed
    rw [latchTick_false]
    exact .inr (.inr ⟨hover, v, ⟨⟨herr, hidle, hbte⟩, hinputs, hkept⟩, rfl⟩)

theorem Abreast.busyInstant (h : Abreast l o a b) (ho : o.seq.task.transmitting = false) {i : Instant}
    (hr : i.reset = false) : AfterRead l i.tick o (busyInstant i a) (busyInstant i b) := by
  rw [busyInstant_noReset hr, busyInstant_noReset hr]
  exact ((h.onHost i).seqStep i ho).latchTick i.tick

theorem Abreast.withInputs (h : Abreast l o a b) (l' : List Instant) :
    Abreast l' o (a.withInputs l') (b.withInputs l') := by
  have hkept := h.kept
  rw [Kept] at hkept
  exact ⟨h.read, h.cfg, h.busy, h.task, ⟨rfl, rfl⟩, by rw [hkept]; rfl⟩

end

theorem withInputs_eq_self {s : State} {l : List Instant} (h : s.env.inputs = l) : s.withInputs l = s := by
  rw [← h, withInputs_self]

/-- Where a MEMREAD in lockstep with an operation's Read fails, the operation gets control with the same failure, at the
same place of the trace. -/
theorem run_abreast {l l' : List Instant} (hl : ∀ i ∈ l, i.reset = false) {o a b : State} (h : Abreast l' o a b)
    (hb : o.busy = true) (ho : o.seq.task.transmitting = false) (hover : (run l a).busy = false)
    (hfail : (run l a).fail = true) :
    ∃ v rest tick, ReadFailed rest o (run l a) v ∧
      (run l b = run rest (State.latchTick tick (finish .failed v)) ∨
        (rest = [] ∧ run l b = State.latchTick tick (finish .failed v))) := by
  induction l generalizing l' a b with
  | nil =>
    have hbusy : b.busy = true := by rw [h.kept]; exact hb
    rw [run, if_pos h.busy] at hover hfail ⊢
    rw [run, if_pos hbusy]
    rcases (h.withInputs []).busyInstant ho (i := Instant.quiet) rfl with hgo | ⟨_, hok⟩ | ⟨_, v, hv, he⟩
    · exact absurd (hover.symm.trans hgo.busy) nofun
    · exact absurd (hok.symm.trans hfail) nofun
    · exact ⟨v, [], _, hv, .inr ⟨rfl, he⟩⟩
  | cons i rest ih =>
    have hbusy : b.busy = true := by rw [h.kept]; exact hb
    rw [run, if_pos h.busy] at hover hfail ⊢
    rw [run, if_pos hbusy]
    rcases (h.withInputs rest).busyInstant ho (hl i List.mem_cons_self) with hgo | ⟨hdone, hok⟩ | ⟨hdone, v, hv, he⟩
    · exact ih (fun j hj => hl j (List.mem_cons_of_mem _ hj)) hgo hover hfail
    · rw [run_idle hdone] at hfail
      exact absurd (hok.symm.trans hfail) nofun
    · rw [run_idle hdone, withInputs_eq_self hv.inputs.1]
      exact ⟨v, rest, _, hv, .inl (by rw [he])⟩

theorem sameRead_startXfer (a b : State) (dev : DevAddr) (aw : BitVec 2) (off : Half) (n : Byte) :
    (a.startXfer .rd dev aw off n).bte.SameRead (b.startXfer .rd dev aw off n).bte :=
  ⟨⟨b.bte.count, b.bte.bstat, b.bte.xcode, rfl⟩, fun hp => absurd rfl hp, nofun, rfl, nofun⟩

/-- An operation's Read of ten bytes, on answers to which a MEMREAD of the same bytes fails: the operation gets control
with the same failure, at the same place of the trace. -/
theorem run_memRead_of_fails {s u o : State} {off : Half} {ins : List Instant} (hr : Ready s)
    (h : Fails .memread s off 10 ins u) (hb : o.busy = true) (ho : o.seq.task.transmitting = false)
    (hcfg : o.cfg = s.cfg) :
    ∃ v rest tick, ReadFailed rest o u v ∧
      (run ins (o.memRead o.cfg.memDev o.memAw off 10) = run rest (State.latchTick tick (finish .failed v)) ∨
        (rest = [] ∧ run ins (o.memRead o.cfg.memDev o.memAw off 10) = State.latchTick tick (finish .failed v))) := by
  have hready : Ready (s.withTransfer off 10 ins) := ⟨hr.busy, hr.halt, hr.pstate, hr.task⟩
  have hnext := h.next
  rw [exec_ready hready] at hnext
  have hu : run ins ((s.withTransfer off 10 ins).accepted .memread) = u := Host.Outcome.next.inj hnext
  have haw : o.memAw = s.memAw := by rw [State.memAw, State.memAw, hcfg]
  have hstart : Abreast ins o (((s.withTransfer off 10 ins).accepted .memread).withInputs ins)
      ((o.memRead o.cfg.memDev o.memAw off 10).withInputs ins) := by
    rw [haw, hcfg]
    exact ⟨sameRead_startXfer _ _ _ _ _ _, hcfg.symm, rfl, rfl, ⟨rfl, rfl⟩, rfl⟩
  have hlockstep := run_abreast h.noReset hstart hb ho
  rw [run_withInputs, run_withInputs, hu] at hlockstep
  exact hlockstep h.idle h.fail

end Sys2Proof.Machine
end

section
/-! CNTVALID over a store (R204): the leading valid records are read one after the other, and the count ends with an
invalid record, with the end of the store, or, as 0, with a failing read. -/

namespace Sys2Proof.Machine

/-! ### The records read -/

/-- The start statuses of a sequence of Reads from its `n`-th on. -/
def Starts.after (f : Starts) (n : Nat) : Starts := fun k => f (k + n)

theorem Starts.Ok.after {f : Starts} (h : f.Ok) (n : Nat) : (f.after n).Ok := fun k => h (k + n)

theorem Starts.next_after (f : Starts) (n : Nat) : f.next.after n = f.after (n + 1) := rfl

theorem recordsTrace_append (aw : BitVec 2) (f : Starts) (rs rs' : List (List Byte)) :
    recordsTrace aw f (rs ++ rs') = recordsTrace aw f rs ++ recordsTrace aw (f.after rs.length) rs' := by
  induction rs generalizing f with
  | nil => rfl
  | cons r rs ih => rw [List.cons_append, recordsTrace, recordsTrace, ih, List.append_assoc, Starts.next_after]; rfl

theorem recordsPrims_append (dev : DevAddr) (aw : BitVec 2) (f : Starts) (k : Nat) (rs rs' : List (List Byte)) :
    recordsPrims dev aw f k (rs ++ rs') =
      recordsPrims dev aw f k rs ++ recordsPrims dev aw (f.after rs.length) (k + rs.length) rs' := by
  induction rs generalizing f k with
  | nil => rfl
  | cons r rs ih =>
    rw [List.cons_append, recordsPrims, recordsPrims, ih, List.append_assoc, Starts.next_after, List.length_cons,
      Nat.add_right_comm, Nat.add_assoc]

/-- `DBUF` after the records of a list were received, each from `DBUF[0]` on. -/
def recordsDbuf (rs : List (List Byte)) (m : Memory) : Memory := rs.foldl (fun m r => Memory.writeBytes 0 r m) m

theorem recordsDbuf_last {rs : List (List Byte)} {r : List Byte} (h : rs.getLast? = some r) (m : Memory) :
    ∃ m', recordsDbuf rs m = Memory.writeBytes 0 r m' := by
  obtain ⟨init, rfl⟩ := List.getLast?_eq_some_iff.1 h
  exact ⟨recordsDbuf init m, by rw [recordsDbuf, List.foldl_append]; rfl⟩

/-- `t` is the block `s` after Reads of the records `rs`, the first from slot `k`, in an operation that has gone from one
to the next. -/
structure Received (s : State) (f : Starts) (k : Nat) (rs : List (List Byte)) (t : State) : Prop where
  frame : t =
    { s with
      dbuf := t.dbuf, bte := t.bte, seq := { s.seq with cidx := t.seq.cidx }
      env := { s.env with inputs := t.env.inputs, prims := t.env.prims } }
  dbuf : t.dbuf = recordsDbuf rs s.dbuf
  prims : t.env.prims = s.env.prims ++ recordsPrims s.cfg.memDev s.memAw f k rs

theorem Received.refl (s : State) (f : Starts) (k : Nat) : Received s f k [] s :=
  ⟨rfl, rfl, (List.append_nil _).symm⟩

theorem Received.append {s t u : State} {f : Starts} {k : Nat} {rs rs' : List (List Byte)} (h : Received s f k rs t)
    (h' : Received t (f.after rs.length) (k + rs.length) rs' u) : Received s f k (rs ++ rs') u := by
  obtain ⟨hf, hdbuf, hprims⟩ := h
  obtain ⟨hf', hdbuf', hprims'⟩ := h'
  have hcfg : t.cfg = s.cfg := by rw [hf]
  refine ⟨?_, ?_, ?_⟩
  · rw [hf] at hf'
    exact hf'
  · rw [hdbuf', hdbuf, recordsDbuf, recordsDbuf, recordsDbuf, List.foldl_append]
  · rw [hprims', hprims, recordsPrims_append, State.memAw, State.memAw, hcfg, List.append_assoc]

/-! ### One record -/

/-- CNTVALID has control. -/
structure Counting (s : State) : Prop where
  busy : s.busy = true
  task : s.seq.task = .cntValid

theorem Counting.received {s t : State} {f : Starts} {k : Nat} {rs : List (List Byte)} (h : Counting s)
    (hr : Received s f k rs t) : Counting t := by
  rw [hr.frame]
  exact ⟨h.busy, h.task⟩

/-- The Read of record `CIDX`, the bytes `r` received. -/
def State.counted (s : State) (st st2 : Byte) (r : List Byte) (l : List Instant) : State :=
  s.moved ⟨.rd, s.cfg.memDev, s.memAw, recOffset s.seq.cidx, 10⟩ st st2 r l

/-- ... and CNTVALID at the next record. -/
def State.countedUp (s : State) (st st2 : Byte) (r : List Byte) (l : List Instant) : State :=
  { s.counted st st2 r l with seq := { s.seq with cidx := s.seq.cidx + 1 } }

theorem received_counted (s : State) (f : Starts) (r : List Byte) (l : List Instant) :
    Received s f s.seq.cidx.toNat [r] (s.counted (f 0).1 (f 0).2 r l) := by
  refine ⟨rfl, rfl, ?_⟩
  rw [recordsPrims, recordsPrims, List.append_nil, BitVec.ofNat_toNat, BitVec.setWidth_eq]
  rfl

theorem received_countedUp (s : State) (f : Starts) (r : List Byte) (l : List Instant) :
    Received s f s.seq.cidx.toNat [r] (s.countedUp (f 0).1 (f 0).2 r l) :=
  ⟨rfl, (received_counted s f r l).dbuf, (received_counted s f r l).prims⟩

/-- A record of the loop (R204): a valid one goes on to the next, an invalid one ends the count. -/
theorem run_countNext {s : State} (h : Counting s) (hlt : s.seq.cidx < s.capacity) {st st2 : Byte}
    (hs : isStart st = true) (hs2 : isStart st2 = true) {r : List Byte} (hl : r.length = 10) (l : List Instant) :
    run (readTrace st st2 s.memAw r ++ l) s.countNext =
      run l
        (if recByte r 0 = 0 then (s.counted st st2 r l).endCount s.seq.cidx else (s.countedUp st st2 r l).countNext) := by
  have htask : (s.counted st st2 r l).seq.task = .cntValid := h.task
  have hbyte : (s.counted st st2 r l).dbufGet 0 = recByte r 0 :=
    dbufGet_received (m := s.dbuf) rfl (by rw [hl]; decide)
  have hfinish : finish .ok (s.counted st st2 r l) =
      if recByte r 0 = 0 then (s.counted st st2 r l).endCount s.seq.cidx else (s.countedUp st st2 r l).countNext := by
    rw [finish, htask]
    dsimp only
    rw [finishCount, recordResult_ok rfl]
    dsimp only
    rw [State.recValid, hbyte]
    by_cases hz : recByte r 0 = 0
    · rw [if_pos hz, hz]; rfl
    · rw [if_neg hz, if_pos (by simpa using hz)]; rfl
  rw [State.countNext, if_pos hlt, readRecord_inRange hlt, ← hfinish]
  exact run_startXfer (x := ⟨.rd, s.cfg.memDev, s.memAw, recOffset s.seq.cidx, 10⟩) h.busy (by rw [h.task]; rfl)
    (memAw_cases s) hs (fun _ => hs2) ⟨hl, nofun⟩ l

/-! ### The leading valid records -/

/-- The valid records of a list go by, and CNTVALID stands before the next one. -/
theorem run_countNext_valid {rs : List (List Byte)} (hrs : ∀ r ∈ rs, r.length = 10 ∧ recByte r 0 ≠ 0) {s : State}
    (h : Counting s) {f : Starts} (hf : f.Ok) (hle : s.seq.cidx.toNat + rs.length ≤ s.capacity.toNat)
    (l : List Instant) :
    ∃ t, run (recordsTrace s.memAw f rs ++ l) s.countNext = run l t.countNext ∧ Received s f s.seq.cidx.toNat rs t ∧
      t.seq.cidx.toNat = s.seq.cidx.toNat + rs.length := by
  induction rs generalizing s f with
  | nil => exact ⟨s, rfl, .refl s f _, rfl⟩
  | cons r rs ih =>
    obtain ⟨hl, hvalid⟩ := hrs r List.mem_cons_self
    obtain ⟨hs, hs2⟩ := hf 0
    rw [List.length_cons] at hle
    have hcap := s.capacity.isLt
    have hlt : s.seq.cidx < s.capacity := BitVec.lt_def.2 (by omega)
    have hsucc : (s.seq.cidx + 1).toNat = s.seq.cidx.toNat + 1 := by bv_omega
    have hfirst := received_countedUp s f r (recordsTrace s.memAw f.next rs ++ l)
    have hcidx' : (s.countedUp (f 0).1 (f 0).2 r (recordsTrace s.memAw f.next rs ++ l)).seq.cidx.toNat =
        s.seq.cidx.toNat + 1 := hsucc
    have hle' : s.seq.cidx.toNat + 1 + rs.length ≤ s.capacity.toNat := by omega
    obtain ⟨t, hrun, ht, hcidx⟩ := ih (fun r hr => hrs r (List.mem_cons_of_mem _ hr)) (h.received hfirst)
      (hf.after 1) (by rw [hcidx']; exact hle')
    rw [hcidx'] at ht hcidx
    refine ⟨t, ?_, hfirst.append ht, by rw [hcidx, List.length_cons]; omega⟩
    rw [recordsTrace, List.append_assoc, run_countNext h hlt hs hs2 hl, if_neg hvalid]
    exact hrun

/-- After the leading valid records, the end of the store or an invalid record ends the count. -/
theorem run_countNext_end {s : State} (h : Counting s) {f : Starts} (hf : f.Ok) {tail : List (List Byte)}
    (htail : ∀ r ∈ tail, r.length = 10 ∧ recByte r 0 = 0)
    (hend : (s.seq.cidx.toNat = s.capacity.toNat ∧ tail = []) ∨
      (s.seq.cidx.toNat < s.capacity.toNat ∧ tail.length = 1)) (l : List Instant) :
    ∃ t, run (recordsTrace s.memAw f tail ++ l) s.countNext = (t.endCount s.seq.cidx).withInputs l ∧
      Received s f s.seq.cidx.toNat tail t := by
  rcases hend with ⟨hfull, rfl⟩ | ⟨hlt, hone⟩
  · have hno : ¬ s.seq.cidx < s.capacity := fun hlt => by
      have := BitVec.lt_def.1 hlt
      omega
    refine ⟨s, ?_, .refl s f _⟩
    rw [State.countNext, if_neg hno]
    exact run_idle rfl
  · obtain ⟨r, rfl⟩ := List.length_eq_one_iff.1 hone
    obtain ⟨hl, hinvalid⟩ := htail r List.mem_cons_self
    obtain ⟨hs, hs2⟩ := hf 0
    refine ⟨_, ?_, received_counted s f r l⟩
    rw [recordsTrace, recordsTrace, List.append_nil, run_countNext h (BitVec.lt_def.2 hlt) hs hs2 hl, if_pos hinvalid]
    exact run_idle rfl

/-! ### The command -/

/-- CNTVALID before its first record. -/
abbrev State.countBegun (s : State) : State := (s.commandStart (encodeByte .cntvalid)).begun .cntvalid

theorem counting_countBegun (s : State) : Counting s.countBegun := ⟨rfl, rfl⟩

/-- CNTVALID up to the record after its leading valid ones. -/
theorem exec_cntvalid {s : State} {f : Starts} {rs : List (List Byte)} {l : List Instant} (hr : Ready s) (hf : f.Ok)
    (hrs : ∀ r ∈ rs, r.length = 10 ∧ recByte r 0 ≠ 0) (hle : rs.length ≤ s.capacity.toNat)
    (hin : s.env.inputs = recordsTrace s.memAw f rs ++ l) :
    ∃ t, exec .cntvalid s = .next (run l t.countNext) ∧ Received s.countBegun f 0 rs t ∧ t.seq.cidx.toNat = rs.length := by
  obtain ⟨t, hrun, ht, hcidx⟩ := run_countNext_valid hrs (counting_countBegun s) hf
    (show 0 + rs.length ≤ s.capacity.toNat by omega) l
  refine ⟨t, ?_, ht, hcidx.trans (Nat.zero_add _)⟩
  rw [exec_ready hr, hin]
  exact congrArg _ hrun

/-- Settles O28: the valid records go by, and the invalid record or the end of the store ends the count. -/
theorem countsValidPrefix : Obligations.CountsValidPrefix := by
  intro s f rs tail rest hr hf hrs htail hend hin
  have hle : rs.length ≤ s.capacity.toNat := by omega
  rw [recordsTrace_append, List.append_assoc] at hin
  obtain ⟨t, hexec, ht, hcidx⟩ := exec_cntvalid hr hf hrs hle hin
  have hcap : t.capacity = s.capacity := by rw [ht.frame]; rfl
  have haw : t.memAw = s.memAw := by rw [ht.frame]; rfl
  obtain ⟨u, hrun, hu⟩ := run_countNext_end ((counting_countBegun s).received ht) (hf.after rs.length) htail
    (by rwa [hcidx, hcap]) rest
  rw [hcidx] at hu
  have hall : Received s.countBegun f 0 (rs ++ tail) u := ht.append (by rw [Nat.zero_add]; exact hu)
  rw [haw] at hrun
  refine ⟨_, hexec.trans (congrArg _ hrun), rfl, ?_, ?_, rfl, ?_, hcidx, rfl, hall.prims, fun r hlast k hk => ?_⟩
  · rw [hall.frame]; rfl
  · rw [hall.frame]; rfl
  · rw [hall.frame]; rfl
  · obtain ⟨m, hm⟩ := recordsDbuf_last hlast s.dbuf
    have hlen : r.length = 10 := by
      rcases List.mem_append.1 (List.mem_of_getLast? hlast) with hmem | hmem
      · exact (hrs r hmem).1
      · exact (htail r hmem).1
    refine dbufGet_received (m := m) (hall.dbuf.trans hm) ?_
    rw [hlen]
    exact BitVec.lt_def.1 hk

/-! ### A failing read -/

/-- CNTVALID, whose record read has failed: the count is 0 and `ERR` keeps the code (R204, R278). -/
theorem finish_failed_count {v : State} (h : v.seq.task = .cntValid) : finish .failed v = v.endCount 0 := by
  rw [finish, h]
  rfl

/-- A transaction that breaks off at its selection with the status `sx`, as its operation finds it (R152). -/
def State.unselected (s : State) (st sx : Byte) (l : List Instant) : State :=
  { s with
    err := 3
    bte := { s.bte with pstate := .idle, owned := true, count := 0, bstat := sx, xcode := .status }
    env := { s.env with
      inputs := l
      prims := s.env.prims ++ [.sent .start st, .sent (.send (s.bte.xdev ++ 0#1)) sx, .stopped] } }

theorem run_brokenRead {s : State} {kind : XKind} (h : AtStart s kind) {st sx : Byte} (hs : isStart st = true)
    (hn : sx ∉ PState.named 0 .slaw) (l : List Instant) :
    run (brokenRead st sx ++ l) s = run l (finish .failed (s.unselected st sx l)) := by
  have hnack : sx ≠ stSlawNack := fun hx => hn (by rw [hx]; simp [PState.named])
  rw [brokenRead, List.cons_append, List.cons_append, List.cons_append, List.nil_append,
    run_went h.busy h.task (p := .start) (by simp [State.request, h.pstate]) nofun
      (takeStatus_start (by exact h.pstate) hs 0),
    run_went (by exact h.busy) (by exact h.task) (p := .send (s.bte.xdev ++ 0#1)) rfl nofun
      (takeStatus_abort (by rfl) (verdict_unnamed (by rfl) (by simp) hn) (fun hx => hnack hx.2) _ _),
    run_stopFail (by exact h.busy) (by exact h.task) rfl]
  simp [State.unselected, State.went, State.withInputs, Bte.aborting, Prim.returns, PrimEvent.sent, FailCode.code]

/-- CNTVALID before a record that exists begins its Read (R202). -/
theorem countNext_inRange {t : State} (h : t.seq.cidx < t.capacity) :
    t.countNext = t.memRead t.cfg.memDev t.memAw (recOffset t.seq.cidx) 10 := by
  rw [State.countNext, if_pos h, readRecord_inRange h]

/-- The count ends with a failing read, wherever the trace stands. -/
theorem run_failed_count {v : State} (h : v.seq.task = .cntValid) (tick : Bool) :
    run v.env.inputs (State.latchTick tick (finish .failed v)) = (v.endCount 0).latchTick tick := by
  rw [finish_failed_count h, run_idle rfl]
  rfl

/-- Settles O29: the valid records go by, and the failing read of the next record makes the count 0. -/
theorem countFailureIsZero : Obligations.CountFailureIsZero := by
  intro s f rs hr hf hrs hlt
  refine ⟨fun ins u hfails hin => ?_, fun st sx rest hs hn hin => ?_⟩
  · obtain ⟨t, hexec, ht, hcidx⟩ := exec_cntvalid hr hf hrs (Nat.le_of_lt hlt) hin
    obtain ⟨hbusy, htask⟩ := (counting_countBegun s).received ht
    have hcfg : t.cfg = s.cfg := by rw [ht.frame]; rfl
    have hslot : t.seq.cidx < t.capacity := by rw [BitVec.lt_def, hcidx, ht.frame]; exact hlt
    have hidx : BitVec.ofNat 16 rs.length = t.seq.cidx := by rw [← hcidx, BitVec.ofNat_toNat, BitVec.setWidth_eq]
    rw [hidx] at hfails
    obtain ⟨v, rest, tick, hv, hrun⟩ := run_memRead_of_fails hr hfails hbusy (by rw [htask]; rfl) hcfg
    have hcount : v.seq.task = .cntValid := by rw [hv.kept]; exact htask
    have hend : run ins t.countNext = (v.endCount 0).latchTick tick := by
      rw [countNext_inRange hslot]
      rcases hrun with he | ⟨_, he⟩ <;> rw [he]
      · rw [← hv.inputs.2, run_failed_count hcount]
      · rw [finish_failed_count hcount]
    have hready : Ready (s.withTransfer (recOffset t.seq.cidx) 10 ins) := ⟨hr.busy, hr.halt, hr.pstate, hr.task⟩
    obtain ⟨hok, _⟩ | ⟨_, hzero, hlo, hhi⟩ :=
      resultTriple _ u .memread _ hready hfails.noReset rfl hfails.next hfails.idle
    · exact absurd (hok.symm.trans hfails.fail) nofun
    · obtain ⟨herr, _, c, hbte⟩ := hv.alike
      refine ⟨_, hexec.trans (congrArg _ hend), rfl, rfl, herr, ?_, ?_, rfl, ?_, ?_, ?_, ?_⟩
      · exact herr ▸ hlo
      · exact herr ▸ hhi
      · exact (congrArg Bte.count hbte).trans hzero
      · exact (congrArg Bte.bstat hbte :)
      · exact (congrArg Bte.iter hbte :)
      · exact hv.inputs.2.trans hv.inputs.1.symm
  · rw [List.append_assoc] at hin
    obtain ⟨t, hexec, ht, hcidx⟩ := exec_cntvalid hr hf hrs (Nat.le_of_lt hlt) hin
    obtain ⟨hbusy, htask⟩ := (counting_countBegun s).received ht
    have hslot : t.seq.cidx < t.capacity := by rw [BitVec.lt_def, hcidx, ht.frame]; exact hlt
    have hstart := atStart_startXfer hbusy (by rw [htask]; rfl) (memAw_cases t) .rd t.cfg.memDev (recOffset t.seq.cidx) 10
    rw [countNext_inRange hslot, State.memRead, run_brokenRead hstart hs hn, finish_failed_count (by exact htask),
      run_idle rfl] at hexec
    exact ⟨_, hexec, rfl, rfl, rfl, rfl, rfl, rfl, rfl⟩

end Sys2Proof.Machine
end

section
/-! A pass up to its time read (R222 to R224), whoever starts it: what it finds once the time record has been received, and
the two ends that need no scan. -/

namespace Sys2Proof.Machine

/-- The pass started by `d` in `s`, when it has received the time bytes `bs` and latched the time (R185, R222). -/
def DueBy.timed (d : DueBy) (s : State) (st st2 : Byte) (bs : List Byte) (rest : List Instant) : State :=
  { s with
    cmd := d.cmd s, busy := true, src := d.src, err := 0
    dbuf := Memory.writeBytes 0 bs s.dbuf
    bte := s.bte.done .rd s.cfg.clockDev 1 0 7 0
    dt := specTime bs
    seq := { s.seq with task := .dueTime, mode := d.mode }
    env := { s.env with inputs := rest, prims := s.env.prims ++ readPrims st st2 s.cfg.clockDev 1 0 bs } }

/-- The time read of a pass on a responsive bus: a bad time ends the pass, a good one leads on to the windows (R223). -/
theorem dueBy_run_timed {d : DueBy} {s : State} {st st2 : Byte} {bs : List Byte} {rest : List Instant} (hr : Ready s)
    (hm : d.May s) (hs : isStart st = true) (hs2 : isStart st2 = true) (hl : bs.length = 7)
    (hin : s.env.inputs = readTrace st st2 1 bs ++ rest) :
    d.run s = .next (run rest
      (if (specTime bs).bad then ((d.timed s st st2 bs rest).raise .badTime).completePass true
        else (d.timed s st st2 bs rest).windows)) := by
  have hrun := run_memRead (aw := 1)
    (s := { s with cmd := d.cmd s, busy := true, src := d.src, err := 0
                   seq := { s.seq with task := .dueTime, mode := d.mode } })
    rfl rfl (.inl rfl) hs hs2 s.cfg.clockDev 0 7 bs hl rest
  rw [dueBy_run hr hm, hin, dueBy_started]
  refine congrArg _ (hrun.trans (congrArg _ ?_))
  generalize hu : ({ s with
    cmd := d.cmd s, busy := true, src := d.src, err := 0
    dbuf := Memory.writeBytes 0 bs s.dbuf
    bte := s.bte.done .rd s.cfg.clockDev 1 0 7 0
    seq := { s.seq with task := .dueTime, mode := d.mode }
    env := { s.env with inputs := rest, prims := s.env.prims ++ readPrims st st2 s.cfg.clockDev 1 0 bs } } : State) = u
  have htask : u.seq.task = .dueTime := by rw [← hu]
  have hdt : u.decodedTime = specTime bs := decodedTime_received (m := s.dbuf) (by rw [← hu]) hl
  have hlatch : u.latchTime = d.timed s st st2 bs rest := by
    rw [State.latchTime, hdt, ← hu]
    rfl
  rw [finish, htask]
  dsimp only
  rw [finishDueTime, hdt, hlatch]

theorem dueBy_run_windows {d : DueBy} {s : State} {st st2 : Byte} {bs : List Byte} {rest : List Instant} (hr : Ready s)
    (hm : d.May s) (hs : isStart st = true) (hs2 : isStart st2 = true) (hl : bs.length = 7)
    (hgood : (specTime bs).bad = false) (hin : s.env.inputs = readTrace st st2 1 bs ++ rest) :
    d.run s = .next (run rest (d.timed s st st2 bs rest).windows) := by
  rw [dueBy_run_timed hr hm hs hs2 hl hin, hgood, if_neg nofun]

/-- A pass in the minute of the last one ends at once, and `LASTMIN` is that minute already (R224). -/
theorem windows_sameMinute {s : State} (h : s.dt.minuteOfDay = s.cursor.lastMin) :
    s.windows = State.completePass false { s with seq := { s.seq with cur := s.dt.minuteOfDay } } := by
  have hcursor : { s.cursor with lastMin := s.dt.minuteOfDay } = s.cursor := by rw [h]
  exact (if_pos h).trans (congrArg (fun c => State.completePass false
    { s with seq := { s.seq with cur := s.dt.minuteOfDay }, cursor := c }) hcursor)

/-- Settles O30: after the time read the pass is over. -/
theorem sameMinutePass : Obligations.SameMinutePass := by
  intro s st st2 bs rest hr hs hs2 hl hgood hsame hin
  have hpass : ∀ d : DueBy, d ≠ .tick → d.run s = .next
      { s.ended (d.cmd s) (s.bte.done .rd s.cfg.clockDev 1 0 7 0) (readPrims st st2 s.cfg.clockDev 1 0 bs) rest with
        dbuf := Memory.writeBytes 0 bs s.dbuf
        dt := specTime bs
        tickp := false
        seq := { s.seq with mode := d.mode, cur := (specTime bs).minuteOfDay } } := fun d hd => by
    have hseq : { s.seq with task := .idle, mode := d.mode, cur := (specTime bs).minuteOfDay } =
        { s.seq with mode := d.mode, cur := (specTime bs).minuteOfDay } := by rw [← hr.task]
    rw [dueBy_run_windows hr (fun h => absurd h hd) hs hs2 hl hgood hin, windows_sameMinute (by exact hsame),
      run_idle (by rfl), hr.ended_eq, ← hseq]
    cases d with
    | normal | init => rfl
    | tick => exact absurd rfl hd
  rintro i mode (⟨rfl, rfl⟩ | ⟨rfl, rfl⟩)
  · exact hpass .normal nofun
  · exact hpass .init nofun

theorem bad_iff (t : DateTime) : t.bad = true ↔ 23 < t.hour.toNat ∨ 59 < t.min.toNat := by
  simp [DateTime.bad, BitVec.lt_def]

/-- Settles O35: the time is latched before it is tested, and the test comes before any record. -/
theorem badTime : Obligations.BadTime := by
  intro s d st st2 bs rest hr hm hs hs2 hl hbad hin
  have hseq : { s.seq with task := .idle, mode := d.mode } = { s.seq with mode := d.mode } := by rw [← hr.task]
  rw [dueBy_run_timed hr hm hs hs2 hl hin, if_pos ((bad_iff (specTime bs)).2 hbad), run_idle (by rfl),
    hr.failed_eq, ← hseq]
  rfl

end Sys2Proof.Machine
end

section
/-! When a tick run starts (R245), and the command that goes before it (R247, R267). -/

namespace Sys2Proof.Machine

/-! ### The start of a tick run -/

/-- An instant without host access starts a tick run in an idle block with ticks enabled and a tick pending (R245). -/
theorem instant_tickRun {i : Instant} {s : State} (hb : s.busy = false) (hh : s.halt = false) (hen : s.tickEn = true)
    (htick : s.tickp = true ∨ i.tick = true) (hr : i.reset = false) (hhost : i.host = none) :
    instant i s = run s.env.inputs s.tickBegun := by
  have hcmd : i.cmdWrite? = none := by rw [Instant.cmdWrite?, hhost]
  have htickp : (s.latchTick i.tick).tickp = true := by simpa [State.latchTick] using htick
  have hready : (s.latchTick i.tick).tickReady = true := by
    simp only [State.tickReady, htickp, latchTick_busy, latchTick_halt, latchTick_tickEn, hb, hh, hen]
    rfl
  rw [instant_idle hr hb hcmd, idleInstant_eq, heard_of_noHost hhost, if_pos hready, tickRun_eq,
    tickStart_checkDue htickp]
  rfl

theorem tickBegun_request (s : State) : s.tickBegun.request = some .start := rfl

theorem waiting_tickBegun (s : State) : Waiting s.tickBegun := ⟨rfl, .inr ⟨.start, tickBegun_request s, nofun⟩⟩

/-- Settles O39: the instant starts the tick run, which then waits for its first START. -/
theorem tickRunStarts : Obligations.TickRunStarts := by
  intro s i rest hb hh hen htick hr hhost hin
  refine ⟨?_, run_nil_waiting (waiting_tickBegun s), tickBegun_request s⟩
  rw [step_listed hin, instant_tickRun (s := s.withInputs rest) hb hh hen htick hr hhost]
  exact congrArg _ (run_withInputs rest rest s.tickBegun)

/-! ### A command before a tick run -/

/-- Every byte but those of CHKDUE runs to its end with `CMD` its own, `SRC` 0, and a pending tick left pending
(R245, R262, R267). -/
theorem run_byteBody_pending {c : Byte} (hN : c ≠ 0x40) (hI : c ≠ 0x41) {s : State} (ht : s.tickp = true)
    {l : List Instant} (hl : ∀ j ∈ l, j.reset = false) :
    (run l (byteBody c (s.commandStart c))).cmd = c ∧ (run l (byteBody c (s.commandStart c))).src = false ∧
      (run l (byteBody c (s.commandStart c))).tickp = true := by
  obtain ⟨i, hbegun, hi⟩ := begunBy_eq c (s.commandStart c)
  have ha := acts_byteBody c (s.commandStart c)
  have hop : opOf i ≠ .dueTime := fun hdue => by
    rcases opOf_eq_due hdue with rfl | rfl
    · exact hN (encodeByte_of_decodeByte (hi.resolve_right nofun)).symm
    · exact hI (encodeByte_of_decodeByte (hi.resolve_right nofun)).symm
  rw [hbegun] at ha
  have hf := ha.frame
  rw [begun_op] at hf
  have hruns := hf.runs (.inl (begun_op i _))
  have hbegin : ((s.commandStart c).begun i).cmd = c ∧ ((s.commandStart c).begun i).src = false ∧
      ((s.commandStart c).begun i).tickp = s.tickp := by cases i <;> exact ⟨rfl, rfl, rfl⟩
  have htickp : (byteBody c (s.commandStart c)).tickp = true := by
    rw [ha.tickFrame.other (by rw [begun_op]; exact hop), hbegin.2.2, ht]
  have hrun := run_frame hl hruns
  exact ⟨(hrun.cmd.trans hf.cmd).trans hbegin.1, (hrun.src.trans hf.src).trans hbegin.2.1,
    run_tickp_kept hop hl hruns htickp⟩

/-- An idle block with nothing ahead starts a pending tick run in the next instant, and it waits for its first START. -/
theorem step_tickRun {t : State} (hb : t.busy = false) (hh : t.halt = false) (hen : t.tickEn = true)
    (ht : t.tickp = true) (hu : t.env.upcoming = []) : step t = .next (t.tickBegun.withInputs []) := by
  have hin : t.env.inputs = [] := by
    rcases upcoming_cases t.env with ⟨hin, _⟩ | ⟨_, he⟩
    · exact hin
    · rw [← he, hu]
  rw [step_nil hu, instant_tickRun hb hh hen (.inl ht) rfl rfl, hin, run_nil_waiting (waiting_tickBegun t)]

/-- Settles O40: the command's run keeps the tick, and the block it leaves starts the tick run. -/
theorem commandBeforeTick : Obligations.CommandBeforeTick := by
  intro s c rest hr hen ht hN hI hl hin
  have hstep : step s = .next (run rest (byteBody c ((s.withInputs rest).commandStart c))) := by
    rw [step_listed hin, instant_command (s := s.withInputs rest) (c := c) rfl hr.busy rfl]
    obtain ⟨hh, _⟩ | ⟨_, he⟩ := accept_cases (s := s.withInputs rest) hr.busy c
    · cases hh.symm.trans hr.halt
    · rw [latchTick_false, he]
      rfl
  obtain ⟨hcmd, hsrc, htickp⟩ := run_byteBody_pending hN hI (s := s.withInputs rest) ht hl
  refine ⟨_, hstep, hcmd, hsrc, htickp, ?_, fun hb hten hh hu => ?_⟩
  · rintro rfl
    rw [run_idle (by rfl)]
    exact ⟨rfl, rfl⟩
  · exact ⟨_, step_tickRun hb hh hten htickp hu, rfl, rfl, hcmd, rfl⟩

end Sys2Proof.Machine
end

section
/-! The pseudocode of the scan (R238) record by record: where it goes on from each, why it ends (R239), and what Init leaves
out of it (R242). -/

namespace Sys2Proof.Machine

/-! ### One record -/

/-- What the pseudocode does about one record: its events, the cursor it leaves, and whether the scan ends with it. -/
structure RecordStep where
  events : List ScanEvent
  next : Half
  ends : Bool

/-- The record `r` under the cursor `idx` (R232 to R237). -/
def specRecord (cap : Half) (dt : DateTime) (mode : Mode) (wfrom wto : Nat) (sstart idx : Half) (r : List Byte) :
    RecordStep :=
  if recByte r 0 = 0 then ⟨[.fetch idx], 0, decide (idx = 0 ∨ sstart = 0)⟩
  else if wfrom ≤ specMinute r ∧ specMinute r < wto then
    ⟨.fetch idx :: specTx dt mode r, nextAfter cap idx, decide (nextAfter cap idx = sstart)⟩
  else ⟨[.fetch idx], idx, true⟩

/-- The scan that begins with this step and goes on with `scan` from the cursor it leaves. -/
def RecordStep.thenScan (p : RecordStep) (scan : Half → Option (List ScanEvent × Half)) :
    Option (List ScanEvent × Half) :=
  if p.ends then some (p.events, p.next) else (scan p.next).map fun q => (p.events ++ q.1, q.2)

section
variable {cap : Half} {store : Half → List Byte} {dt : DateTime} {mode : Mode} {wfrom wto : Nat} {sstart : Half}

/-- A scan is the step of the record under its cursor and the scan after it (R238). -/
theorem specScan_succ (fuel : Nat) (idx : Half) :
    specScan cap store dt mode wfrom wto sstart (fuel + 1) idx =
      (specRecord cap dt mode wfrom wto sstart idx (store idx)).thenScan
        (specScan cap store dt mode wfrom wto sstart fuel) := by
  rw [specScan, specRecord, RecordStep.thenScan]
  by_cases hz : recByte (store idx) 0 = 0
  · rw [if_pos hz, if_pos hz]
    by_cases hend : idx = 0 ∨ sstart = 0
    · simp only [hend, if_true, decide_true]
    · simp only [hend, if_false, decide_false]
      cases specScan cap store dt mode wfrom wto sstart fuel 0 <;> rfl
  · rw [if_neg hz, if_neg hz]
    by_cases hw : wfrom ≤ specMinute (store idx) ∧ specMinute (store idx) < wto
    · rw [if_pos hw, if_pos hw]
      by_cases hend : nextAfter cap idx = sstart
      · simp only [hend, if_true, decide_true]
      · simp only [hend, if_false, decide_false]
        cases specScan cap store dt mode wfrom wto sstart fuel (nextAfter cap idx) <;> rfl
    · rw [if_neg hw, if_neg hw]
      rfl

theorem specRecord_next_lt {idx : Half} (h : idx < cap) (r : List Byte) :
    (specRecord cap dt mode wfrom wto sstart idx r).next < cap := by
  unfold specRecord
  split_ifs
  · exact BitVec.lt_def.2 (Nat.lt_of_le_of_lt (Nat.zero_le _) (BitVec.lt_def.1 h))
  · exact nextAfter_lt h
  · exact h

/-- The cursor of a scan stays inside the store (R241). -/
theorem specScan_next_lt {fuel : Nat} {idx n : Half} {es : List ScanEvent} (hidx : idx < cap)
    (h : specScan cap store dt mode wfrom wto sstart fuel idx = some (es, n)) : n < cap := by
  induction fuel generalizing idx es with
  | zero => cases h
  | succ fuel ih =>
    rw [specScan_succ, RecordStep.thenScan] at h
    have hnext := specRecord_next_lt (dt := dt) (mode := mode) (wfrom := wfrom) (wto := wto) (sstart := sstart) hidx
      (store idx)
    split at h
    · cases h
      exact hnext
    · obtain ⟨⟨es', n'⟩, hq, he⟩ := Option.map_eq_some_iff.1 h
      cases he
      exact ih hnext hq

/-! ### Termination -/

/-- An invalid record sends the cursor to slot 0, unless the scan ends there (R232). -/
theorem specRecord_invalid {idx : Half} {r : List Byte} (hr : recByte r 0 = 0)
    (h : (specRecord cap dt mode wfrom wto sstart idx r).ends = false) :
    (specRecord cap dt mode wfrom wto sstart idx r).next = 0 ∧ sstart ≠ 0 := by
  simp only [specRecord, if_pos hr, decide_eq_false_iff_not, not_or] at h ⊢
  exact ⟨trivial, h.2⟩

/-- A valid one moves the cursor to the next slot, unless that is where the scan began (R236, R237). -/
theorem specRecord_valid {idx : Half} {r : List Byte} (hr : recByte r 0 ≠ 0)
    (h : (specRecord cap dt mode wfrom wto sstart idx r).ends = false) :
    (specRecord cap dt mode wfrom wto sstart idx r).next = nextAfter cap idx ∧ nextAfter cap idx ≠ sstart := by
  simp only [specRecord, if_neg hr] at h ⊢
  split at h
  · next hw =>
    rw [if_pos hw]
    exact ⟨rfl, of_decide_eq_false h⟩
  · cases h

theorem toNat_nextAfter {idx : Half} (h : idx < cap) :
    (nextAfter cap idx).toNat = if idx.toNat + 1 = cap.toNat then 0 else idx.toNat + 1 := by
  have hcap := cap.isLt
  have hlt := BitVec.lt_def.1 h
  have hsucc : (idx + 1).toNat = idx.toNat + 1 := by
    rw [BitVec.toNat_add]
    exact Nat.mod_eq_of_lt (by simp; omega)
  rw [nextAfter, apply_ite BitVec.toNat, hsucc]
  simp only [← BitVec.toNat_inj, hsucc]
  rfl

/-- The scan has ended after `fuel` record reads, its cursor inside the store. -/
def ScanEnds (cap : Half) (store : Half → List Byte) (dt : DateTime) (mode : Mode) (wfrom wto : Nat) (sstart : Half)
    (fuel : Nat) (idx : Half) : Prop :=
  ∃ es n, specScan cap store dt mode wfrom wto sstart fuel idx = some (es, n) ∧ n < cap

theorem scanEnds_succ {fuel : Nat} {idx : Half} (hidx : idx < cap)
    (h : (specRecord cap dt mode wfrom wto sstart idx (store idx)).ends = false →
      ScanEnds cap store dt mode wfrom wto sstart fuel
        (specRecord cap dt mode wfrom wto sstart idx (store idx)).next) :
    ScanEnds cap store dt mode wfrom wto sstart (fuel + 1) idx := by
  unfold ScanEnds
  rw [specScan_succ, RecordStep.thenScan]
  cases hends : (specRecord cap dt mode wfrom wto sstart idx (store idx)).ends with
  | true => exact ⟨_, _, rfl, specRecord_next_lt hidx _⟩
  | false =>
    obtain ⟨es, n, he, hn⟩ := h hends
    exact ⟨_, n, by rw [he]; rfl, hn⟩

/-- Below the slot it began at, where all records are valid, a scan goes up to that slot at most (R237). -/
theorem scanEnds_below (hstart : sstart < cap) (hvalid : ∀ j, j < sstart → recByte (store j) 0 ≠ 0) {fuel : Nat}
    {idx : Half} (hidx : idx < sstart) (hfuel : sstart.toNat - idx.toNat ≤ fuel) :
    ScanEnds cap store dt mode wfrom wto sstart fuel idx := by
  have hlt := BitVec.lt_def.1 hidx
  have hcap := BitVec.lt_def.1 hstart
  induction fuel generalizing idx with
  | zero => omega
  | succ fuel ih =>
    have hslot : idx < cap := BitVec.lt_trans hidx hstart
    refine scanEnds_succ hslot fun hgo => ?_
    obtain ⟨hnext, hne⟩ := specRecord_valid (hvalid idx hidx) hgo
    have hnat := toNat_nextAfter hslot
    rw [if_neg (by omega)] at hnat
    have hne' : (nextAfter cap idx).toNat ≠ sstart.toNat := fun he => hne (BitVec.toNat_inj.1 he)
    have hbelow : (nextAfter cap idx).toNat < sstart.toNat := by omega
    rw [hnext]
    exact ih (BitVec.lt_def.2 hbelow) (by omega) hbelow

/-- From the slot it began at on, a scan goes up to the lowest invalid slot `v` or the end of the store, and then from
slot 0 on (R232, R236). -/
theorem scanEnds_above {v : Half} (hstart : sstart < cap) (hvalid : ∀ j, j < v → recByte (store j) 0 ≠ 0)
    (hend : v = cap ∨ recByte (store v) 0 = 0) {fuel : Nat} {idx : Half} (hlo : sstart ≤ idx) (hhi : idx ≤ v)
    (hidx : idx < cap) (hfuel : v.toNat - idx.toNat + 1 + sstart.toNat ≤ fuel) :
    ScanEnds cap store dt mode wfrom wto sstart fuel idx := by
  induction fuel generalizing idx with
  | zero => omega
  | succ fuel ih =>
    have hlo' := BitVec.le_def.1 hlo
    have hhi' := BitVec.le_def.1 hhi
    have hbelow : ∀ j, j < sstart → recByte (store j) 0 ≠ 0 := fun j hj =>
      hvalid j (BitVec.lt_def.2 (Nat.lt_of_lt_of_le (BitVec.lt_def.1 hj) (hlo'.trans hhi')))
    have hwrap : sstart ≠ 0 → ScanEnds cap store dt mode wfrom wto sstart fuel 0 := fun hne => by
      have hpos : sstart.toNat ≠ 0 := fun he => hne (BitVec.toNat_inj.1 he)
      exact scanEnds_below hstart hbelow (BitVec.lt_def.2 (Nat.pos_of_ne_zero hpos))
        (show sstart.toNat - 0 ≤ fuel by omega)
    refine scanEnds_succ hidx fun hgo => ?_
    by_cases hz : recByte (store idx) 0 = 0
    · obtain ⟨hnext, hne⟩ := specRecord_invalid hz hgo
      rw [hnext]
      exact hwrap hne
    · obtain ⟨hnext, hne⟩ := specRecord_valid hz hgo
      have hcap := BitVec.lt_def.1 hidx
      have hltv : idx.toNat < v.toNat := by
        refine Nat.lt_of_le_of_ne hhi' fun he => ?_
        have hv := BitVec.toNat_inj.1 he
        rcases hend with hfull | hzero
        · exact Nat.lt_irrefl _ (hfull ▸ hv ▸ hcap)
        · exact hz (hv ▸ hzero)
      have hnat := toNat_nextAfter hidx
      rw [hnext]
      split at hnat
      · have hzero : nextAfter cap idx = 0 := BitVec.toNat_inj.1 hnat
        rw [hzero] at hne ⊢
        exact hwrap hne.symm
      · exact ih (BitVec.le_def.2 (by omega)) (BitVec.le_def.2 (by omega)) (nextAfter_lt hidx) (by omega)

end

/-- Settles O37: up to the lowest invalid slot or the end of the store, and then from slot 0 up to where the scan began. -/
theorem scanTerminates : Obligations.ScanTerminates := by
  intro cap v store dt mode wfrom wto next hnext hv hle hvalid hend
  have hle' := BitVec.le_def.1 hle
  have hv' := BitVec.le_def.1 hv
  exact scanEnds_above hnext hvalid hend (BitVec.le_refl _) hle hnext (by omega)

/-! ### Init -/

theorem fetches_append (es es' : List ScanEvent) : fetches (es ++ es') = fetches es ++ fetches es' := by
  induction es with
  | nil => rfl
  | cons e es ih =>
    cases e with
    | fetch i => rw [List.cons_append, fetches, fetches, ih, List.cons_append]
    | tx e => exact ih

theorem fetches_specTx (dt : DateTime) (mode : Mode) (r : List Byte) : fetches (specTx dt mode r) = [] := by
  unfold specTx
  split <;> rfl

theorem specTx_init (dt : DateTime) (r : List Byte) : specTx dt .init r = [] := by simp [specTx]

/-- In mode Init a record's step is that of Normal without its transmission (R242). -/
theorem specRecord_init (cap : Half) (dt : DateTime) (wfrom wto : Nat) (sstart idx : Half) (r : List Byte) :
    specRecord cap dt .init wfrom wto sstart idx r =
      { specRecord cap dt .normal wfrom wto sstart idx r with
        events := fetches (specRecord cap dt .normal wfrom wto sstart idx r).events } := by
  unfold specRecord
  split_ifs
  · rfl
  · rw [fetches, fetches_specTx, specTx_init]
  · rfl

theorem specScan_init {cap : Half} {store : Half → List Byte} {dt : DateTime} {wfrom wto : Nat} {sstart : Half}
    (fuel : Nat) (idx : Half) :
    specScan cap store dt .init wfrom wto sstart fuel idx =
      (specScan cap store dt .normal wfrom wto sstart fuel idx).map fun q => (fetches q.1, q.2) := by
  induction fuel generalizing idx with
  | zero => rfl
  | succ fuel ih =>
    rw [specScan_succ, specScan_succ, specRecord_init, RecordStep.thenScan, RecordStep.thenScan]
    split
    · rfl
    · rw [ih, Option.map_map, Option.map_map]
      exact congrArg (Option.map · _) (funext fun q => by simp only [Function.comp_apply, fetches_append])

theorem specPass_init {cap : Half} {store : Half → List Byte} {dt : DateTime} {last cur fuel : Nat} {next n : Half}
    {es : List ScanEvent} (h : specPass cap store dt .normal last cur fuel next = some (es, n)) :
    specPass cap store dt .init last cur fuel next = some (fetches es, n) := by
  unfold specPass at h ⊢
  split_ifs at h ⊢
  · cases h
    rfl
  · rw [specScan_init, h]
    rfl
  · rw [specScan_init]
    cases hscan : specScan cap store dt .normal last 1440 next fuel next with
    | none => rw [hscan] at h; cases h
    | some q =>
      obtain ⟨es₁, n₁⟩ := q
      rw [hscan] at h
      dsimp only [Option.map_some] at h ⊢
      rw [specScan_init]
      cases hscan' : specScan cap store dt .normal 0 cur n₁ fuel n₁ with
      | none => rw [hscan'] at h; cases h
      | some q =>
        rw [hscan'] at h
        cases h
        simp only [Option.map_some, fetches_append]

end Sys2Proof.Machine
end

section
/-! A pass over a store whose reads all succeed (R230 to R238): the machine goes through the pseudocode record by record, and
what it has done so far is the list of events. -/

namespace Sys2Proof.Machine

/-! ### Lists of events -/

theorem eventsTrace_append (aw : BitVec 2) (store : Half → List Byte) (f : Starts) (es es' : List ScanEvent) :
    eventsTrace aw store f (es ++ es') =
      eventsTrace aw store f es ++ eventsTrace aw store (f.after (fetches es).length) es' := by
  induction es generalizing f with
  | nil => rfl
  | cons e es ih =>
    cases e with
    | fetch i =>
      rw [List.cons_append, eventsTrace, eventsTrace, fetches, List.length_cons, ih, List.append_assoc, Starts.next_after]
    | tx e => rw [List.cons_append, eventsTrace, eventsTrace, fetches, ih, List.cons_append]

theorem eventsPrims_append (dev : DevAddr) (aw : BitVec 2) (store : Half → List Byte) (f : Starts)
    (es es' : List ScanEvent) :
    eventsPrims dev aw store f (es ++ es') =
      eventsPrims dev aw store f es ++ eventsPrims dev aw store (f.after (fetches es).length) es' := by
  induction es generalizing f with
  | nil => rfl
  | cons e es ih =>
    cases e with
    | fetch i =>
      rw [List.cons_append, eventsPrims, eventsPrims, fetches, List.length_cons, ih, List.append_assoc, Starts.next_after]
    | tx e => exact ih f

theorem eventsTx_append (es es' : List ScanEvent) : eventsTx (es ++ es') = eventsTx es ++ eventsTx es' := by
  induction es with
  | nil => rfl
  | cons e es ih =>
    cases e with
    | fetch i => exact ih
    | tx e => rw [List.cons_append, eventsTx, eventsTx, ih, List.cons_append]

/-! ### The machine's scan over a list of events -/

/-- The cursor moved by a scan (R232, R236). -/
def State.cursorAt (n : Half) (s : State) : State := { s with cursor := { s.cursor with nextIdx := n } }

/-- A window's scan goes on with the record under the cursor, or ends. -/
def State.resumeScan (more ends : Bool) (s : State) : State := if ends then s.endScan more else s.fetch more

/-- `t` is the block `s` after the events `es` of its scans, the cursor at `n`. -/
structure Scanned (s : State) (store : Half → List Byte) (f : Starts) (es : List ScanEvent) (n : Half) (t : State) :
    Prop where
  frame : t =
    { s with
      dbuf := t.dbuf, bte := t.bte, seq := t.seq, tx := t.tx
      cursor := { s.cursor with nextIdx := n }
      env := { s.env with
        inputs := t.env.inputs
        prims := s.env.prims ++ eventsPrims s.cfg.memDev s.memAw store f es
        txs := s.env.txs ++ eventsTx es } }
  port : eventsTx es = [] → t.tx = s.tx

theorem Scanned.start (s : State) (store : Half → List Byte) (f : Starts) (q : Seq) :
    Scanned s store f [] s.cursor.nextIdx { s with seq := q } := by
  refine ⟨?_, fun _ => rfl⟩
  rw [eventsPrims, eventsTx, List.append_nil, List.append_nil]

/-- The latches of the scan in which it begins do not matter. -/
theorem Scanned.of_seq {s t : State} {q : Seq} {store : Half → List Byte} {f : Starts} {es : List ScanEvent} {n : Half}
    (h : Scanned { s with seq := q } store f es n t) : Scanned s store f es n t := ⟨h.frame, h.port⟩

/-- What the scans leave as it was, and the cursor. -/
theorem Scanned.kept {s t : State} {store : Half → List Byte} {f : Starts} {es : List ScanEvent} {n : Half}
    (h : Scanned s store f es n t) :
    t.busy = s.busy ∧ t.cfg = s.cfg ∧ t.memAw = s.memAw ∧ t.capacity = s.capacity ∧ t.dt = s.dt ∧ t.cursor.nextIdx = n := by
  rw [h.frame]
  exact ⟨rfl, rfl, rfl, rfl, rfl, rfl⟩

theorem Scanned.append {s t u : State} {store : Half → List Byte} {f : Starts} {es es' : List ScanEvent} {n n' : Half}
    (h : Scanned s store f es n t) (h' : Scanned t store (f.after (fetches es).length) es' n' u) :
    Scanned s store f (es ++ es') n' u := by
  obtain ⟨_, hcfg, haw, _⟩ := h.kept
  obtain ⟨hf, hport⟩ := h
  obtain ⟨hf', hport'⟩ := h'
  refine ⟨?_, fun hnone => ?_⟩
  · rw [hcfg, haw, hf] at hf'
    rw [eventsPrims_append, eventsTx_append, ← List.append_assoc, ← List.append_assoc]
    exact hf'
  · rw [eventsTx_append, List.append_eq_nil_iff] at hnone
    exact (hport' hnone.2).trans (hport hnone.1)

theorem Scanned.cursorAt {s t : State} {store : Half → List Byte} {f : Starts} {es : List ScanEvent} {n : Half}
    (h : Scanned s store f es n t) (m : Half) : Scanned s store f es m (t.cursorAt m) := by
  refine ⟨?_, h.port⟩
  rw [State.cursorAt, h.frame]

/-! ### One record -/

/-- A scan has control, a slot of the store under its cursor. -/
structure Fetching (more : Bool) (s : State) : Prop where
  busy : s.busy = true
  task : s.seq.task = .dueScan more
  slot : s.cursor.nextIdx < s.capacity

theorem fetching_enterScan {s : State} (hb : s.busy = true) (hslot : s.cursor.nextIdx < s.capacity) (more : Bool)
    (wfrom wto : Minute) : Fetching more (s.enterScan more wfrom wto) := ⟨hb, rfl, hslot⟩

/-- The record's bytes stand in `DBUF[0..9]`. -/
def State.Holds (s : State) (r : List Byte) : Prop := ∀ k : Byte, k.toNat < 10 → s.dbufGet k = recByte r k.toNat

/-- What the pseudocode does about the record `r` in this state's scan. -/
def State.recordStep (s : State) (r : List Byte) : RecordStep :=
  specRecord s.capacity s.dt s.seq.mode s.seq.wfrom.toNat s.seq.wto.toNat s.seq.sstart s.cursor.nextIdx r

/-- The transmission of the record `r` (R235). -/
def recordTx (r : List Byte) : TxEvent := ⟨recByte r 1, recByte r 2, (recByte r 9).getLsbD 0⟩

section
variable {s : State} {r : List Byte}

theorem State.Holds.recValid (h : s.Holds r) : s.recValid = false ↔ recByte r 0 = 0 := by
  rw [State.recValid, h 0 (by decide)]
  simp

theorem State.Holds.inWindow (h : s.Holds r) :
    s.inWindow = true ↔ s.seq.wfrom.toNat ≤ specMinute r ∧ specMinute r < s.seq.wto.toNat := by
  rw [inWindow_iff, h 7 (by decide), h 8 (by decide)]
  rfl

theorem State.Holds.fires (h : s.Holds r) : s.fires = specFires s.dt r := by
  rw [State.fires, State.wdayOk, State.dateOk, h 3 (by decide), h 4 (by decide), h 5 (by decide), h 6 (by decide)]
  rfl

theorem specTx_transmit {dt : DateTime} (h : specFires dt r = true) : specTx dt .normal r = [.tx (recordTx r)] := by
  simp [specTx, h, recordTx]

theorem specTx_silent {dt : DateTime} {mode : Mode} (h : specFires dt r = false ∨ mode = .init) :
    specTx dt mode r = [] := by
  rcases h with h | rfl
  · simp [specTx, h]
  · exact specTx_init dt r

/-- An invalid record under the cursor (R232). -/
theorem scanInvalid_eq (more : Bool) (s : State) :
    s.scanInvalid more =
      (s.cursorAt 0).resumeScan more (decide (s.cursor.nextIdx = 0 ∨ s.seq.sstart = 0)) := by
  rcases scanInvalid_cases more s with ⟨hz, he⟩ | ⟨_, hs, he⟩ | ⟨hz, hs, he⟩ <;> rw [he, State.resumeScan]
  · have hsame : s.cursorAt 0 = s := by rw [State.cursorAt, ← hz]
    rw [if_pos (decide_eq_true (.inl hz)), hsame]
  · rw [if_pos (decide_eq_true (.inr hs))]
    rfl
  · rw [if_neg (by simpa using ⟨hz, hs⟩)]
    rfl

theorem advance_eq (more : Bool) (s : State) :
    s.advance more =
      (s.cursorAt (nextAfter s.capacity s.cursor.nextIdx)).resumeScan more
        (decide (nextAfter s.capacity s.cursor.nextIdx = s.seq.sstart)) := by
  rcases advance_cases more s with ⟨hend, he⟩ | ⟨hgo, he⟩ <;> rw [he]
  · rw [State.resumeScan, if_pos (decide_eq_true hend)]
    rfl
  · rw [State.resumeScan, if_neg (by simpa using hgo)]
    rfl

/-- The record `r` is due: valid, in the window, on its day, in a pass that transmits (R232 to R235, R242). -/
def State.Due (s : State) (r : List Byte) : Prop :=
  recByte r 0 ≠ 0 ∧ (s.seq.wfrom.toNat ≤ specMinute r ∧ specMinute r < s.seq.wto.toNat) ∧ specFires s.dt r = true ∧
    s.seq.mode = .normal

theorem State.Due.recordStep (hd : s.Due r) :
    s.recordStep r =
      ⟨[.fetch s.cursor.nextIdx, .tx (recordTx r)], nextAfter s.capacity s.cursor.nextIdx,
        decide (nextAfter s.capacity s.cursor.nextIdx = s.seq.sstart)⟩ := by
  obtain ⟨hv, hw, hf, hm⟩ := hd
  rw [State.recordStep, specRecord, if_neg hv, if_pos hw, hm, specTx_transmit hf]

/-- A due record goes to the transmit port (R235). -/
theorem State.Due.scanRecord (hd : s.Due r) (h : s.Holds r) (more : Bool) : s.scanRecord more = s.transmit more := by
  obtain ⟨hv, hw, hf, hm⟩ := hd
  have hvalid : s.recValid = true := Bool.of_not_eq_false fun hz => hv (h.recValid.1 hz)
  rw [State.scanRecord, if_pos hvalid, if_pos (h.inWindow.2 hw), h.fires, hf, hm]
  rfl

/-- With any other record the scan does at once what the pseudocode does (R232, R233, R236, R237). -/
theorem scanRecord_of_not_due (hd : ¬ s.Due r) (h : s.Holds r) (more : Bool) :
    (s.recordStep r).events = [.fetch s.cursor.nextIdx] ∧
      s.scanRecord more = (s.cursorAt (s.recordStep r).next).resumeScan more (s.recordStep r).ends := by
  have hvalid : s.recValid = true → recByte r 0 ≠ 0 := fun hv hz => by
    rw [h.recValid.2 hz] at hv
    cases hv
  rcases scanRecord_cases more s with
    ⟨hv, he⟩ | ⟨hv, hw, he⟩ | ⟨hv, hw, hf, hm, _⟩ | ⟨hv, hw, hsilent, he⟩
  · rw [he, State.recordStep, specRecord, if_pos (h.recValid.1 hv)]
    exact ⟨rfl, scanInvalid_eq more s⟩
  · rw [he, State.recordStep, specRecord, if_neg (hvalid hv), if_neg fun hin => nomatch hw.symm.trans (h.inWindow.2 hin)]
    exact ⟨rfl, rfl⟩
  · exact absurd ⟨hvalid hv, h.inWindow.1 hw, h.fires.symm.trans hf, hm⟩ hd
  · rw [h.fires] at hsilent
    rw [he, State.recordStep, specRecord, if_neg (hvalid hv), if_pos (h.inWindow.1 hw), specTx_silent hsilent]
    exact ⟨rfl, advance_eq more s⟩

/-! ### One record read -/

/-- The scan's Read of the record under the cursor, the bytes `r` received. -/
def State.fetched (s : State) (st st2 : Byte) (r : List Byte) (l : List Instant) : State :=
  s.moved ⟨.rd, s.cfg.memDev, s.memAw, recOffset s.cursor.nextIdx, 10⟩ st st2 r l

/-- ... and its transmission acknowledged (R47, R235). -/
def State.transmitted (s : State) (r : List Byte) (l : List Instant) : State :=
  { s with tx := { major := (recordTx r).major, minor := (recordTx r).minor, cmd := (recordTx r).cmd, req := false }
           env := { s.env with inputs := l, txs := s.env.txs ++ [recordTx r] } }

/-- The fetch of a slot that exists begins its Read (R231, R202). -/
theorem fetch_inRange {more : Bool} (h : Fetching more s) :
    s.fetch more = s.memRead s.cfg.memDev s.memAw (recOffset s.cursor.nextIdx) 10 :=
  readRecord_inRange h.slot _

theorem run_fetch {more : Bool} (h : Fetching more s) {st st2 : Byte} (hs : isStart st = true) (hs2 : isStart st2 = true)
    (hl : r.length = 10) (l : List Instant) :
    run (readTrace st st2 s.memAw r ++ l) (s.fetch more) = run l ((s.fetched st st2 r l).scanRecord more) := by
  have htask : (s.fetched st st2 r l).seq.task = .dueScan more := h.task
  have hfinish : finish .ok (s.fetched st st2 r l) = (s.fetched st st2 r l).scanRecord more := by
    rw [finish, htask]
    dsimp only
    rw [finishScan, recordResult_ok rfl]
  rw [fetch_inRange h, ← hfinish]
  exact run_startXfer (x := ⟨.rd, s.cfg.memDev, s.memAw, recOffset s.cursor.nextIdx, 10⟩) h.busy (by rw [h.task]; rfl)
    (memAw_cases s) hs (fun _ => hs2) ⟨hl, nofun⟩ l

theorem holds_fetched (s : State) (st st2 : Byte) (hl : r.length = 10) (l : List Instant) :
    (s.fetched st st2 r l).Holds r := fun _ hk => dbufGet_received (m := s.dbuf) rfl (hl ▸ hk)

theorem busyInstant_ack {more : Bool} (h : s.seq.task = .dueTx more) : busyInstant .ack s = s.txDone more := by
  rw [busyInstant_noReset rfl]
  simp only [Instant.ack, Instant.onHost, latchTick_false, seqStep, h, if_true]

/-- A due record is transmitted, and the scan goes on once the sink has acknowledged (R235, R236). -/
theorem run_transmit {more : Bool} (hb : s.busy = true) (ht : s.seq.task = .dueScan more) (h : s.Holds r)
    (l : List Instant) : run (.ack :: l) (s.transmit more) = run l ((s.transmitted r l).advance more) := by
  have hack : busyInstant .ack ((s.transmit more).withInputs l) = ((s.transmit more).withInputs l).txDone more :=
    busyInstant_ack rfl
  have hseq : { s.seq with task := .dueScan more } = s.seq := by rw [← ht]
  have htx : ({ major := s.dbufGet 1, minor := s.dbufGet 2, cmd := (s.dbufGet 9).getLsbD 0 } : TxEvent) = recordTx r := by
    rw [h 1 (by decide), h 2 (by decide), h 9 (by decide)]
    rfl
  rw [run_cons (by exact hb), hack, State.transmitted, ← htx, ← hseq]
  rfl

theorem scanned_fetched (s : State) {store : Half → List Byte} (hr : store s.cursor.nextIdx = r) (f : Starts)
    (l : List Instant) :
    Scanned s store f [.fetch s.cursor.nextIdx] s.cursor.nextIdx (s.fetched (f 0).1 (f 0).2 r l) := by
  refine ⟨?_, fun _ => rfl⟩
  rw [eventsPrims, eventsPrims, eventsTx, eventsTx, List.append_nil, List.append_nil, hr]
  rfl

theorem scanned_transmitted (s : State) (store : Half → List Byte) (f : Starts) (r : List Byte) (l : List Instant) :
    Scanned s store f [.tx (recordTx r)] s.cursor.nextIdx (s.transmitted r l) := by
  refine ⟨?_, nofun⟩
  rw [eventsPrims, eventsPrims, eventsTx, eventsTx, List.append_nil]
  rfl

/-- A record of a scan: the machine goes on as the pseudocode does. -/
theorem run_record {more : Bool} (h : Fetching more s) {store : Half → List Byte} {f : Starts} (hf : f.Ok)
    (hl : (store s.cursor.nextIdx).length = 10) (l : List Instant) :
    ∃ t, run (eventsTrace s.memAw store f (s.recordStep (store s.cursor.nextIdx)).events ++ l) (s.fetch more) =
        run l (t.resumeScan more (s.recordStep (store s.cursor.nextIdx)).ends) ∧
      Scanned s store f (s.recordStep (store s.cursor.nextIdx)).events (s.recordStep (store s.cursor.nextIdx)).next t ∧
      t.seq = s.seq := by
  obtain ⟨hs, hs2⟩ := hf 0
  generalize hr : store s.cursor.nextIdx = r at hl ⊢
  have hholds := holds_fetched s (f 0).1 (f 0).2 hl
  have hfetched := scanned_fetched s hr f
  by_cases hd : s.Due r
  · rw [hd.recordStep]
    refine ⟨_, ?_, ((hfetched (.ack :: l)).append (scanned_transmitted _ store _ r l)).cursorAt _, rfl⟩
    rw [eventsTrace, eventsTrace, eventsTrace, List.append_assoc, hr, List.cons_append, List.nil_append,
      run_fetch h hs hs2 hl, State.Due.scanRecord (by exact hd) (hholds _),
      run_transmit (by exact h.busy) (by exact h.task) (hholds _), advance_eq]
    rfl
  · obtain ⟨hev, he⟩ := scanRecord_of_not_due (by exact hd) (hholds l) more
    have hev' : (s.recordStep r).events = [.fetch s.cursor.nextIdx] := hev
    rw [hev']
    refine ⟨_, ?_, (hfetched l).cursorAt _, rfl⟩
    rw [eventsTrace, eventsTrace, List.append_nil, hr, run_fetch h hs hs2 hl, he]
    rfl

/-! ### A window, and a pass -/

/-- A scan goes through the events of its pseudocode (R238). -/
theorem run_scan {more : Bool} {store : Half → List Byte} (hl : ∀ j, (store j).length = 10) {fuel : Nat}
    {es : List ScanEvent} {n : Half} (h : Fetching more s) {f : Starts} (hf : f.Ok)
    (hscan : specScan s.capacity store s.dt s.seq.mode s.seq.wfrom.toNat s.seq.wto.toNat s.seq.sstart fuel
      s.cursor.nextIdx = some (es, n)) (l : List Instant) :
    ∃ t, run (eventsTrace s.memAw store f es ++ l) (s.fetch more) = run l (t.endScan more) ∧
      Scanned s store f es n t ∧ t.seq = s.seq := by
  induction fuel generalizing s f es with
  | zero => cases hscan
  | succ fuel ih =>
    rw [specScan_succ, RecordStep.thenScan] at hscan
    have hnext := specRecord_next_lt (dt := s.dt) (mode := s.seq.mode) (wfrom := s.seq.wfrom.toNat)
      (wto := s.seq.wto.toNat) (sstart := s.seq.sstart) h.slot (store s.cursor.nextIdx)
    split at hscan
    · next hends =>
      cases hscan
      obtain ⟨t, hrun, ht, hseq⟩ := run_record h hf (hl _) l
      refine ⟨t, hrun.trans ?_, ht, hseq⟩
      rw [State.resumeScan, if_pos (by exact hends)]
    · next hends =>
      obtain ⟨⟨es', n'⟩, hq, he⟩ := Option.map_eq_some_iff.1 hscan
      cases he
      obtain ⟨t, hrun, ht, hseq⟩ := run_record h hf (hl _)
        (eventsTrace s.memAw store (f.after (fetches (s.recordStep (store s.cursor.nextIdx)).events).length) es' ++ l)
      rw [State.resumeScan, if_neg (by exact hends)] at hrun
      obtain ⟨hbusy, _, haw, hcap, hdt, hidx⟩ := ht.kept
      have hnextFetch : Fetching more t :=
        ⟨hbusy.trans h.busy, by rw [hseq]; exact h.task, by rw [hidx, hcap]; exact hnext⟩
      obtain ⟨u, hrun', hu, hseq'⟩ := ih hnextFetch (hf.after _) (by rw [hcap, hdt, hseq, hidx]; exact hq)
      rw [haw] at hrun'
      refine ⟨u, ?_, ht.append hu, hseq'.trans hseq⟩
      rw [← hrun', ← hrun, ← List.append_assoc, ← eventsTrace_append]
      rfl

/-- A window's scan is entered after a good time (R224, R225, R230). -/
def State.window (s : State) (more : Bool) (wfrom wto : Minute) : State :=
  State.enterScan more wfrom wto { s with seq := { s.seq with cur := s.dt.minuteOfDay } }

theorem fetching_window (hb : s.busy = true) (hslot : s.cursor.nextIdx < s.capacity) (more : Bool) (wfrom wto : Minute) :
    Fetching more (s.window more wfrom wto) := ⟨hb, rfl, hslot⟩

/-- Steps 3 to 5 of a pass in a new minute: one window, or two after midnight (R225, R227). -/
theorem windows_newMinute (h : s.dt.minuteOfDay ≠ s.cursor.lastMin) :
    s.windows =
      if s.cursor.lastMin < s.dt.minuteOfDay then (s.window false s.cursor.lastMin s.dt.minuteOfDay).fetch false
      else (s.window true s.cursor.lastMin Config.dayMinutes).fetch true := if_neg h

/-- After the first window of two, the scan of the second begins (R225). -/
theorem endScan_true (s : State) : s.endScan true = (s.enterScan false 0 s.seq.cur).fetch false := rfl

/-- After the last window the pass is over (R226, R246). -/
theorem run_endScan_false (s : State) (l : List Instant) : run l (s.endScan false) = s.endPass.withInputs l :=
  run_idle (by rfl)

/-- Steps 3 to 5 go through the events of the pseudocode (R227). -/
theorem run_windows {store : Half → List Byte} (hl : ∀ j, (store j).length = 10) {fuel : Nat} {es : List ScanEvent}
    {n : Half} (hb : s.busy = true) (hslot : s.cursor.nextIdx < s.capacity) {f : Starts} (hf : f.Ok)
    (hpass : specPass s.capacity store s.dt s.seq.mode s.cursor.lastMin.toNat s.dt.minuteOfDay.toNat fuel
      s.cursor.nextIdx = some (es, n)) (l : List Instant) :
    ∃ t, run (eventsTrace s.memAw store f es ++ l) s.windows = t.endPass.withInputs l ∧ Scanned s store f es n t ∧
      t.seq.cur = s.dt.minuteOfDay := by
  unfold specPass at hpass
  split at hpass
  · next hsame =>
    cases hpass
    exact ⟨_, (congrArg _ (if_pos (BitVec.toNat_inj.1 hsame))).trans (run_idle (by rfl)), .start s store f _, rfl⟩
  next hne =>
  rw [windows_newMinute fun he => hne (congrArg _ he)]
  have hfetch := fetching_window hb hslot
  split at hpass
  · next hlt =>
    obtain ⟨t, hrun, ht, hseq⟩ := run_scan hl (hfetch false s.cursor.lastMin s.dt.minuteOfDay) hf hpass l
    refine ⟨t, ?_, ht.of_seq.of_seq, by rw [hseq]; rfl⟩
    rw [if_pos (BitVec.lt_def.2 hlt)]
    exact hrun.trans (run_endScan_false t l)
  · next hle =>
    split at hpass
    · cases hpass
    next es₁ n₁ hfirst =>
    split at hpass
    · cases hpass
    next es₂ n₂ hsecond =>
    cases hpass
    obtain ⟨t, hrun, ht, hseq⟩ := run_scan hl (hfetch true s.cursor.lastMin Config.dayMinutes) hf hfirst
      (eventsTrace s.memAw store (f.after (fetches es₁).length) es₂ ++ l)
    have hn₁ : n₁ < s.capacity := specScan_next_lt hslot hfirst
    obtain ⟨hbusy, _, haw, hcap, hdt, hidx⟩ := ht.of_seq.of_seq.kept
    have hcur : t.seq.cur = s.dt.minuteOfDay := by rw [hseq]; rfl
    have hmode : t.seq.mode = s.seq.mode := by rw [hseq]; rfl
    have hagain := fetching_enterScan (hbusy.trans hb) (by rw [hidx, hcap]; exact hn₁) false 0 t.seq.cur
    obtain ⟨u, hrun', hu, hseq'⟩ := run_scan hl hagain (hf.after (fetches es₁).length)
      (by rw [← hcap, ← hdt, ← hmode, ← hidx] at hsecond; rw [← hdt] at hcur; rw [hcur]; exact hsecond) l
    refine ⟨u, ?_, ht.of_seq.of_seq.append hu.of_seq, by rw [hseq']; exact hcur⟩
    rw [if_neg fun hlt => hle (BitVec.lt_def.1 hlt), eventsTrace_append, List.append_assoc]
    refine hrun.trans ?_
    rw [endScan_true, ← haw]
    exact hrun'.trans (run_endScan_false u l)

end

/-! ### The statements -/

/-- A pass over a store whose reads all succeed, whoever starts it: what it has done is what the pseudocode does. -/
theorem dueBy_run_specPass {d : DueBy} {s : State} {st st2 : Byte} {f : Starts} {bs : List Byte}
    {store : Half → List Byte} {fuel : Nat} {es : List ScanEvent} {n : Half} {rest : List Instant} (hr : Ready s)
    (hm : d.May s) (hs : isStart st = true) (hs2 : isStart st2 = true) (hf : f.Ok) (hl : bs.length = 7)
    (hstore : ∀ j, (store j).length = 10) (hgood : (specTime bs).bad = false) (hslot : s.cursor.nextIdx < s.capacity)
    (hpass : specPass s.capacity store (specTime bs) d.mode s.cursor.lastMin.toNat (specTime bs).minuteOfDay.toNat fuel
      s.cursor.nextIdx = some (es, n))
    (hin : s.env.inputs = readTrace st st2 1 bs ++ eventsTrace s.memAw store f es ++ rest) :
    ∃ t, d.run s = .next t ∧ PassDone s t st st2 f bs store es n rest ∧ t.cmd = d.cmd s ∧ t.src = d.src ∧
      (eventsTx es = [] → t.tx = s.tx) := by
  rw [List.append_assoc] at hin
  obtain ⟨t, hrun, ⟨hframe, hport⟩, hcur⟩ := run_windows
    (s := d.timed s st st2 bs (eventsTrace s.memAw store f es ++ rest)) hstore rfl hslot hf hpass rest
  have hexec := dueBy_run_windows hr hm hs hs2 hl hgood hin
  refine ⟨_, hexec.trans (congrArg _ hrun), ⟨rfl, rfl, ?_, rfl, ?_, ?_, ?_, ?_, rfl⟩, ?_, ?_, hport⟩
  · exact (congrArg State.err hframe :)
  · exact (congrArg State.dt hframe :)
  · have hidx : t.cursor.nextIdx = n := (congrArg (fun t : State => t.cursor.nextIdx) hframe :)
    exact congrArg₂ Cursor.mk hcur hidx
  · exact (congrArg (fun t : State => t.env.txs) hframe :)
  · exact (congrArg (fun t : State => t.env.prims) hframe :)
  · exact (congrArg State.cmd hframe :)
  · exact (congrArg State.src hframe :)

/-- Settles O31: each of the three starts the same pass. -/
theorem passFollowsPseudocode : Obligations.PassFollowsPseudocode := by
  intro s mode st st2 f bs store fuel es n rest hr hs hs2 hf hl hstore hgood hslot hpass
  refine ⟨fun hin i hi => ?_, fun hin hmode hen htp => ?_⟩
  · rcases hi with ⟨rfl, rfl⟩ | ⟨rfl, rfl⟩
    · obtain ⟨t, hrun, hdone, hcmd, hsrc, _⟩ :=
        dueBy_run_specPass (d := .normal) hr nofun hs hs2 hf hl hstore hgood hslot hpass hin
      exact ⟨t, hrun, hdone, hcmd, hsrc⟩
    · obtain ⟨t, hrun, hdone, hcmd, hsrc, _⟩ :=
        dueBy_run_specPass (d := .init) hr nofun hs hs2 hf hl hstore hgood hslot hpass hin
      exact ⟨t, hrun, hdone, hcmd, hsrc⟩
  · subst hmode
    have hready : Ready (s.withInputs (readTrace st st2 1 bs ++ eventsTrace s.memAw store f es ++ rest)) :=
      ⟨hr.busy, hr.halt, hr.pstate, hr.task⟩
    obtain ⟨t, hrun, hdone, hcmd, hsrc, _⟩ :=
      dueBy_run_specPass (d := .tick) hready (fun _ => ⟨hen, htp⟩) hs hs2 hf hl hstore hgood hslot hpass rfl
    have hstep : step s = .next t := (congrArg step (withInputs_eq_self hin)).symm.trans hrun
    obtain ⟨hbusy, hfail, herr, htickp, hdt, hcursor, htxs, hprims, hinputs⟩ := hdone
    exact ⟨t, hstep, ⟨hbusy, hfail, herr, htickp, hdt, hcursor, htxs, hprims, hinputs⟩, hcmd, hsrc⟩

theorem eventsTx_fetches (es : List ScanEvent) : eventsTx (fetches es) = [] := by
  induction es with
  | nil => rfl
  | cons e es ih => cases e <;> exact ih

theorem eventsPrims_fetches (dev : DevAddr) (aw : BitVec 2) (store : Half → List Byte) (f : Starts)
    (es : List ScanEvent) : eventsPrims dev aw store f (fetches es) = eventsPrims dev aw store f es := by
  induction es generalizing f with
  | nil => rfl
  | cons e es ih =>
    cases e with
    | fetch i => rw [fetches, eventsPrims, eventsPrims, ih]
    | tx e => exact ih f

/-- Settles O32: both passes do what their pseudocode does, and that of Init is that of Normal without transmissions. -/
theorem initOnlySilences : Obligations.InitOnlySilences := by
  intro s st st2 f bs store fuel es n rest hr hs hs2 hf hl hstore hgood hslot hpass
  have hready : ∀ l, Ready (s.withInputs l) := fun _ => ⟨hr.busy, hr.halt, hr.pstate, hr.task⟩
  obtain ⟨t, hrunN, ht, _⟩ :=
    dueBy_run_specPass (d := .normal) (hready (readTrace st st2 1 bs ++ eventsTrace s.memAw store f es ++ rest))
      nofun hs hs2 hf hl hstore hgood hslot hpass rfl
  obtain ⟨u, hrunI, hu, _, _, hport⟩ :=
    dueBy_run_specPass (d := .init) (hready (readTrace st st2 1 bs ++ eventsTrace s.memAw store f (fetches es) ++ rest))
      nofun hs hs2 hf hl hstore hgood hslot (specPass_init hpass) rfl
  have htxs := hu.txs
  have hprims := hu.prims
  rw [eventsTx_fetches, List.append_nil] at htxs
  rw [eventsPrims_fetches] at hprims
  exact ⟨t, u, hrunN, hrunI, hu.cursor.trans ht.cursor.symm, hu.err.trans ht.err.symm, hu.fail.trans ht.fail.symm,
    hprims.trans ht.prims.symm, hu.inputs, htxs, hport (eventsTx_fetches es)⟩

end Sys2Proof.Machine
end

section
/-! A pass in which the read of the record under the cursor fails (R225, R226, R231, R240): the failure ends its window's scan
and nothing else. -/

namespace Sys2Proof.Machine

/-! ### A failing MEMREAD -/

/-- A MEMREAD that fails has been answered. -/
theorem inputs_ne_nil_of_fails {s u : State} {off : Half} {ins : List Instant} (hr : Ready s)
    (h : Fails .memread s off 10 ins u) : ins ≠ [] := by
  rintro rfl
  have hnext := h.next
  rw [exec_ready (s := s.withTransfer off 10 []) ⟨hr.busy, hr.halt, hr.pstate, hr.task⟩] at hnext
  have hrun := run_nil_waiting (accepted_waiting (s := s.withTransfer off 10 []) (i := .memread) rfl)
  have hbusy : u.busy = true := by
    rw [← Host.Outcome.next.inj hnext]
    exact congrArg State.busy hrun
  exact absurd (hbusy.symm.trans h.idle) nofun

/-- What a MEMREAD that fails leaves (R115). -/
theorem result_of_fails {s u : State} {off : Half} {ins : List Instant} (hr : Ready s)
    (h : Fails .memread s off 10 ins u) : u.bte.count = 0 ∧ 1 ≤ u.err ∧ u.err ≤ 4 := by
  have hready : Ready (s.withTransfer off 10 ins) := ⟨hr.busy, hr.halt, hr.pstate, hr.task⟩
  obtain ⟨hok, _⟩ | ⟨_, hresult⟩ := resultTriple _ u .memread _ hready h.noReset rfl h.next h.idle
  · exact absurd (hok.symm.trans h.fail) nofun
  · exact hresult

/-! ### One window -/

/-- A scan whose record read has failed ends its window, the cursor unchanged (R231). -/
theorem finish_failed_scan {v : State} {more : Bool} (h : v.seq.task = .dueScan more) :
    finish .failed v = v.endScan more := by
  rw [finish, h]
  rfl

section
variable {s u o : State} {ins : List Instant}

/-- The fetch of a record, on answers to which a MEMREAD of it fails: the window ends with the same failure. -/
theorem run_fetch_of_fails {more : Bool} (hr : Ready s) (ho : Fetching more o) (hcfg : o.cfg = s.cfg)
    (h : Fails .memread s (recOffset o.cursor.nextIdx) 10 ins u) :
    ∃ v tick, ReadFailed u.env.inputs o u v ∧
      (run ins (o.fetch more) = run u.env.inputs (State.latchTick tick (v.endScan more)) ∨
        (u.env.inputs = [] ∧ run ins (o.fetch more) = State.latchTick tick (v.endScan more))) := by
  obtain ⟨v, rest, tick, hv, hrun⟩ := run_memRead_of_fails hr h ho.busy (by rw [ho.task]; rfl) hcfg
  obtain rfl := hv.inputs.1
  have htask : v.seq.task = .dueScan more := by
    rw [hv.kept]
    exact ho.task
  rw [finish_failed_scan htask] at hrun
  rw [fetch_inRange ho]
  exact ⟨v, tick, hv, hrun⟩

theorem latchTick_fetch {more : Bool} (ho : Fetching more o) (tick : Bool) :
    (o.fetch more).latchTick tick = (o.latchTick tick).fetch more := by
  rw [fetch_inRange ho, fetch_inRange (s := o.latchTick tick) ⟨ho.busy, ho.task, ho.slot⟩]
  rfl

/-- What a failed read leaves as the pass has set it. -/
theorem Kept.pass {o v : State} (h : Kept o v) :
    v.dt = o.dt ∧ v.cursor = o.cursor ∧ v.env.txs = o.env.txs ∧ v.seq = o.seq ∧ v.busy = o.busy ∧
      v.capacity = o.capacity ∧ v.cfg = o.cfg := by
  rw [h]
  exact ⟨rfl, rfl, rfl, rfl, rfl, rfl, rfl⟩

/-- The same in the pass's last window: the pass is over. -/
theorem run_fetch_last_of_fails (hr : Ready s) (ho : Fetching false o) (hcfg : o.cfg = s.cfg)
    (h : Fails .memread s (recOffset o.cursor.nextIdx) 10 ins u) :
    ∃ v tick, ReadFailed u.env.inputs o u v ∧ run ins (o.fetch false) = v.endPass.latchTick tick := by
  obtain ⟨v, tick, hv, hrun | ⟨_, hrun⟩⟩ := run_fetch_of_fails hr ho hcfg h
  · refine ⟨v, tick, hv, ?_⟩
    rw [hrun, ← hv.inputs.2, run_idle (by rfl)]
    rfl
  · exact ⟨v, tick, hv, hrun⟩

/-! ### The pass -/

/-- A pass in a new minute whose fetches fail: `u` is the MEMREAD that fails in the first window, `w` in the last. -/
theorem run_windows_of_fails {p w : State} (hr : Ready s) (hb : p.busy = true) (hslot : p.cursor.nextIdx < p.capacity)
    (hcfg : p.cfg = s.cfg) (hnew : p.dt.minuteOfDay ≠ p.cursor.lastMin)
    (hu : Fails .memread s (recOffset p.cursor.nextIdx) 10 ins u)
    (hw : if p.cursor.lastMin < p.dt.minuteOfDay then w = u
      else Fails .memread s (recOffset p.cursor.nextIdx) 10 u.env.inputs w) :
    ∃ v tick, run ins p.windows = v.endPass.latchTick tick ∧ SameFailure w v ∧ v.env.inputs = w.env.inputs ∧
      v.dt = p.dt ∧ v.cursor = p.cursor ∧ v.env.txs = p.env.txs ∧ v.seq.cur = p.dt.minuteOfDay := by
  have hfetch := fetching_window hb hslot
  rw [windows_newMinute hnew]
  split at hw
  · next hlt =>
    subst hw
    obtain ⟨v, tick, hv, hrun⟩ := run_fetch_last_of_fails hr (hfetch false _ _) hcfg hu
    obtain ⟨hdt, hcursor, htxs, hseq, _⟩ := hv.kept.pass
    rw [if_pos hlt]
    exact ⟨v, tick, hrun, hv.alike, hv.inputs.2, hdt, hcursor, htxs, by rw [hseq]; rfl⟩
  · next hle =>
    obtain ⟨v, tick, hv, hrun⟩ := run_fetch_of_fails hr (hfetch true _ _) hcfg hu
    obtain ⟨hdt, hcursor, htxs, hseq, hbusy, hcap, hcfg'⟩ := hv.kept.pass
    have hcur : v.seq.cur = p.dt.minuteOfDay := by rw [hseq]; rfl
    have hgo := hrun.resolve_right fun hend => inputs_ne_nil_of_fails hr hw hend.1
    have hsecond := fetching_enterScan (hbusy.trans hb) (by rw [hcursor, hcap]; exact hslot) false 0 v.seq.cur
    have hidx : v.cursor.nextIdx = p.cursor.nextIdx := congrArg Cursor.nextIdx hcursor
    obtain ⟨x, tick', hx, hrun'⟩ := run_fetch_last_of_fails (o := (v.enterScan false 0 v.seq.cur).latchTick tick) hr
      ⟨hsecond.busy, hsecond.task, hsecond.slot⟩ (hcfg'.trans hcfg) (by rw [← hidx] at hw; exact hw)
    obtain ⟨hdt', hcursor', htxs', hseq', _⟩ := hx.kept.pass
    rw [if_neg hle, hgo, endScan_true, latchTick_fetch hsecond]
    refine ⟨x, tick', hrun', hx.alike, hx.inputs.2, hdt'.trans hdt, hcursor'.trans hcursor, htxs'.trans htxs, ?_⟩
    rw [hseq']
    exact hcur

end

/-! ### An unexpected status at the selection -/

/-- The scan's Read of the record under the cursor, broken off at its selection with the status `sx` (R152). -/
def State.unread (s : State) (st sx : Byte) (l : List Instant) : State :=
  (s.memRead s.cfg.memDev s.memAw (recOffset s.cursor.nextIdx) 10).unselected st sx l

/-- It leaves as they are what the pass has set and what it goes by. -/
theorem unread_pass (s : State) (st sx : Byte) (l : List Instant) :
    (s.unread st sx l).cursor = s.cursor ∧ (s.unread st sx l).env.txs = s.env.txs ∧ (s.unread st sx l).seq = s.seq ∧
      (s.unread st sx l).busy = s.busy ∧ (s.unread st sx l).capacity = s.capacity := ⟨rfl, rfl, rfl, rfl, rfl⟩

theorem run_fetch_broken {o : State} {more : Bool} (ho : Fetching more o) {st sx : Byte} (hs : isStart st = true)
    (hn : sx ∉ PState.named 0 .slaw) (l : List Instant) :
    run (brokenRead st sx ++ l) (o.fetch more) = run l ((o.unread st sx l).endScan more) := by
  have hstart := atStart_startXfer ho.busy (by rw [ho.task]; rfl) (memAw_cases o) .rd o.cfg.memDev
    (recOffset o.cursor.nextIdx) 10
  rw [fetch_inRange ho, State.memRead, run_brokenRead hstart hs hn, finish_failed_scan (by exact ho.task)]
  rfl

/-- A pass in a new minute whose fetches break off so, in one window or in two. -/
theorem run_windows_broken {p : State} (hb : p.busy = true) (hslot : p.cursor.nextIdx < p.capacity)
    (hnew : p.dt.minuteOfDay ≠ p.cursor.lastMin) {st st2 sx : Byte} (hs : isStart st = true) (hs2 : isStart st2 = true)
    (hn : sx ∉ PState.named 0 .slaw) (l : List Instant) :
    ∃ v : State, run ((if p.cursor.lastMin < p.dt.minuteOfDay then brokenRead st sx
          else brokenRead st sx ++ brokenRead st2 sx) ++ l) p.windows = v.endPass.withInputs l ∧
      v.err = 3 ∧ v.bte.count = 0 ∧ v.bte.bstat = sx ∧ v.cursor = p.cursor ∧ v.env.txs = p.env.txs ∧
      v.seq.cur = p.dt.minuteOfDay := by
  have hfetch := fetching_window hb hslot
  rw [windows_newMinute hnew]
  split
  · rw [run_fetch_broken (hfetch false _ _) hs hn]
    exact ⟨_, run_endScan_false _ _, rfl, rfl, rfl, rfl, rfl, rfl⟩
  · rw [List.append_assoc, run_fetch_broken (hfetch true _ _) hs hn, endScan_true]
    obtain ⟨hcursor, htxs, hseq, hbusy, hcap⟩ :=
      unread_pass (p.window true p.cursor.lastMin Config.dayMinutes) st sx (brokenRead st2 sx ++ l)
    generalize (p.window true p.cursor.lastMin Config.dayMinutes).unread st sx (brokenRead st2 sx ++ l) = w at *
    have hsecond := fetching_enterScan (hbusy.trans hb) (by rw [hcursor, hcap]; exact hslot) false 0 w.seq.cur
    rw [run_fetch_broken hsecond hs2 hn]
    exact ⟨_, run_endScan_false _ _, rfl, rfl, rfl, hcursor, htxs, congrArg Seq.cur hseq⟩

/-! ### An empty store -/

/-- A pass in a new minute over an empty store raises `E_RANGE` and is over (R231, R240). -/
theorem windows_empty {p : State} (hcap : p.capacity = 0) (hnew : p.dt.minuteOfDay ≠ p.cursor.lastMin) :
    ∃ q : Seq, q.cur = p.dt.minuteOfDay ∧ p.windows = State.endPass { p.raise .range with seq := q } := by
  have hout : ∀ more wfrom wto, (p.window more wfrom wto).capacity ≤ (p.window more wfrom wto).cursor.nextIdx :=
    fun _ _ _ => BitVec.le_def.2 (by rw [show (p.window _ _ _).capacity = 0 from hcap]; exact Nat.zero_le _)
  rw [windows_newMinute hnew]
  split
  · obtain ⟨q, hcur, _, _, he⟩ := fetch_outOfRange (hout false p.cursor.lastMin p.dt.minuteOfDay) false
    exact ⟨q, hcur, he⟩
  · obtain ⟨q, hcur, _, _, he⟩ := fetch_outOfRange (hout true p.cursor.lastMin Config.dayMinutes) true
    exact ⟨q, hcur, he⟩

/-! ### The statement -/

theorem reset_readTrace (st st2 : Byte) (aw : BitVec 2) (ds : List Byte) :
    ∀ i ∈ readTrace st st2 aw ds, i.reset = false := by
  have htrace : (Xfer.prims ⟨.rd, 0, aw, 0, 0⟩ st st2 ds).map PrimEvent.instant = readTrace st st2 aw ds :=
    Xfer.map_instant_prims _ st st2 ds
  rw [← htrace]
  exact reset_map_instant

/-- A pass that is over has cleared `TICKP`, unless an edge came (R246). -/
theorem tickp_of_pass_over {d : DueBy} {s t : State} (hr : Ready s) (hm : d.May s) (hn : NoReset s) (ht : NoTick s)
    (hrun : d.run s = .next t) (hover : t.busy = false) : t.tickp = false := by
  rw [dueBy_run hr hm] at hrun
  have he := Host.Outcome.next.inj hrun
  have htickp := run_tickp_due (l := s.env.inputs) (s := d.started s) (fun i hi => ⟨hn i hi, ht i hi⟩)
    (by rw [dueBy_started]; rfl) (by rw [dueBy_started])
  rwa [he, hover, if_neg nofun] at htickp

/-- Settles O36: the failing reads, named by the MEMREADs that fail; the broken selections; the empty store. -/
theorem scanReadFailure : Obligations.ScanReadFailure := by
  intro s d st st2 bs hr hm hs hs2 hl hgood hnew
  refine ⟨fun ins u w hslot hu hw hin => ?_, fun sx rest hslot hn hin => ?_, fun rest hcap hin => ?_⟩
  · obtain ⟨v, tick, hrun, ⟨herr, _, c, hbte⟩, hinputs, hdt, hcursor, htxs, hcur⟩ :=
      run_windows_of_fails (p := d.timed s st st2 bs ins) hr rfl hslot rfl hnew hu hw
    obtain ⟨hcount, hlo, hhi⟩ : w.bte.count = 0 ∧ 1 ≤ w.err ∧ w.err ≤ 4 := by
      split at hw
      · exact hw ▸ result_of_fails hr hu
      · exact result_of_fails hr hw
    have hreset : NoReset s := fun i hi => by
      rw [hin, List.mem_append] at hi
      exact hi.elim (reset_readTrace st st2 1 bs i) (hu.noReset i)
    have hexec := (dueBy_run_windows hr hm hs hs2 hl hgood hin).trans (congrArg _ hrun)
    refine ⟨_, hexec, rfl, rfl, herr, herr ▸ hlo, herr ▸ hhi, ?_, ?_,
      fun ht => tickp_of_pass_over hr hm hreset ht hexec rfl, hdt, ?_, htxs, hinputs⟩
    · exact (congrArg Bte.count hbte).trans hcount
    · exact (congrArg Bte.bstat hbte :)
    · exact congrArg₂ Cursor.mk hcur (congrArg Cursor.nextIdx hcursor)
  · rw [List.append_assoc] at hin
    have hexec := dueBy_run_windows hr hm hs hs2 hl hgood hin
    obtain ⟨v, hrun, herr, hcount, hbstat, hcursor, htxs, hcur⟩ :=
      run_windows_broken (p := d.timed s st st2 bs _) rfl hslot hnew hs hs2 hn rest
    exact ⟨_, hexec.trans (congrArg _ hrun), rfl, rfl, herr, hcount, hbstat, rfl,
      congrArg₂ Cursor.mk hcur (congrArg Cursor.nextIdx hcursor), htxs, rfl⟩
  · obtain ⟨q, hcur, he⟩ := windows_empty (p := d.timed s st st2 bs rest) hcap hnew
    have hexec := dueBy_run_windows hr hm hs hs2 hl hgood hin
    rw [he, run_idle (by rfl)] at hexec
    exact ⟨_, hexec, rfl, rfl, rfl, rfl, congrArg₂ Cursor.mk hcur rfl, rfl, rfl, rfl⟩

end Sys2Proof.Machine
end

section
/-! NOP (R260), and the halted block (R265): over an instant without RESET `HALT` stays set, and an idle block only
hears the host. -/

namespace Sys2Proof.Machine

/-! ### NOP -/

/-- Settles O6: NOP starts, completes at once, and its run takes no instant. -/
theorem nopCompletes : Obligations.NopCompletes := by
  intro s ⟨hbusy, hhalt, hpstate, htask⟩
  have hbte : { s.bte with pstate := .idle } = s.bte := by rw [← hpstate]
  have hseq : { s.seq with task := .idle } = s.seq := by rw [← htask]
  rw [exec_eq_accept, accept_ready hbusy hhalt, commandBody, runSeq_idle (by rfl)]
  have hbyte : encodeByte .nop = 0x00 := rfl
  simp [State.complete, State.commandStart, FailCode.code, hbyte, hbte, hseq, hbusy]

/-! ### `HALT` is never cleared -/

theorem onHost_busyHost_halt (i : Instant) {s : State} (h : s.halt = true) :
    (i.onHost State.busyHost s).halt = true := by
  unfold Instant.onHost
  split
  · next a _ =>
    rcases busyHost_cases a s with ⟨_, _, he⟩ | ⟨_, he⟩ | ⟨_, he⟩ | he <;> rw [he] <;> simp [h]
  · exact h

theorem busyInstant_halt {i : Instant} (hr : i.reset = false) {s : State} (h : s.halt = true) :
    (busyInstant i s).halt = true := by
  rw [busyInstant_noReset hr, latchTick_halt, (seqStep_hostFrame i _).halt]
  exact onHost_busyHost_halt i h

theorem heard_halt (i : Instant) {s : State} (h : s.halt = true) : (s.heard i).halt = true :=
  onHost_idleHost_halt i h

/-- A halted block starts no tick run (R245, R265). -/
theorem idleInstant_halted (i : Instant) {s : State} (h : s.halt = true) : idleInstant i s = s.heard i := by
  have hready : (s.heard i).tickReady = false := by simp [State.tickReady, heard_halt i h]
  rw [idleInstant_eq, hready]
  rfl

/-- An instant of an idle halted block: a `CMD` write is discarded (R31), any other access is heard. -/
theorem instant_halted {i : Instant} {s : State} (hr : i.reset = false) (hb : s.busy = false) (h : s.halt = true) :
    instant i s = (s.latchTick i.tick).discard ∨ instant i s = s.heard i := by
  cases hc : i.cmdWrite? with
  | some c => exact .inl (by rw [instant_command hr hb hc, accept_discard (s := s.latchTick i.tick) (.inr h)])
  | none => exact .inr (by rw [instant_idle hr hb hc, idleInstant_halted i h])

theorem instant_halt {i : Instant} {s : State} (hr : i.reset = false) (h : s.halt = true) :
    (instant i s).halt = true := by
  cases hb : s.busy with
  | true => rw [instant_busy hr hb]; exact busyInstant_halt hr h
  | false =>
    rcases instant_halted hr hb h with he | he <;> rw [he]
    · exact h
    · exact heard_halt i h

/-- Settles O56: a step is one instant; `HALT` stays set over it, and an idle block starts no operation in it. -/
theorem haltIsFinal : Obligations.HaltIsFinal := by
  intro s t hn hh he
  obtain ⟨i, rest, hr, _, hs⟩ := step_eq_instant_of_forall (Q := fun j => j.reset = false) rfl hn
  rw [← Host.Outcome.next.inj (hs.symm.trans he)]
  refine ⟨instant_halt (s := s.withInputs rest) hr hh, fun hb => ?_⟩
  rcases instant_halted (s := s.withInputs rest) hr hb hh with hi | hi <;> rw [hi]
  · exact ⟨hb, rfl, rfl, rfl, rfl, rfl, rfl, rfl, rfl, rfl⟩
  · rw [heard_frame]
    exact ⟨hb, rfl, rfl, rfl, rfl, rfl, rfl, rfl, rfl, rfl⟩

end Sys2Proof.Machine
end

section
/-! Nothing is fatal (R274, R279, R312). -/

namespace Sys2Proof.Machine

/-- Settles O5: a step is one instant, and an instant answers with a state whatever it brings: RESET, a busy block's
instant, a command byte (every arm of `exec` and ILLEGAL accept it), or an idle block's. -/
theorem stepNeverStops : Obligations.StepNeverStops := by
  intro s
  obtain ⟨i, rest, _, hs⟩ := step_eq_instant s
  exact ⟨instant i (s.withInputs rest), hs⟩

end Sys2Proof.Machine
end

section
/-! The scan that does not end (R239, R310). A scan that no record ends goes on through any number of laps; in the
configuration of R310 every lap transmits two records. -/

namespace Sys2Proof.Machine

/-! ### A scan under way -/

/-- What the pseudocode does about slot `i` of the store in this state's scan. -/
def State.slotStep (s : State) (store : Half → List Byte) (i : Half) : RecordStep :=
  specRecord s.capacity s.dt s.seq.mode s.seq.wfrom.toNat s.seq.wto.toNat s.seq.sstart i (store i)

/-- From the cursor `i` a scan whose slots are dealt with as `slots` says goes through the events `es` to the cursor `n`, and
no record on the way ends it. -/
inductive GoesOn (slots : Half → RecordStep) : Half → List ScanEvent → Half → Prop where
  | refl (i : Half) : GoesOn slots i [] i
  | record {i n : Half} {es : List ScanEvent} (hgo : (slots i).ends = false) (h : GoesOn slots (slots i).next es n) :
      GoesOn slots i ((slots i).events ++ es) n

theorem GoesOn.trans {slots : Half → RecordStep} {i j n : Half} {es es' : List ScanEvent} (h : GoesOn slots i es j)
    (h' : GoesOn slots j es' n) : GoesOn slots i (es ++ es') n := by
  induction h with
  | refl => exact h'
  | record hgo _ ih =>
    rw [List.append_assoc]
    exact .record hgo (ih h')

/-- A lap that leads back to where it began can be gone through any number of times. -/
theorem GoesOn.laps {slots : Half → RecordStep} {i : Half} {es : List ScanEvent} (h : GoesOn slots i es i) (k : Nat) :
    GoesOn slots i (List.replicate k es).flatten i := by
  induction k with
  | zero => exact .refl i
  | succ k ih =>
    rw [List.replicate_succ, List.flatten_cons]
    exact h.trans ih

/-- The machine goes on as the pseudocode does, and is about to read the next record. -/
theorem run_goesOn {more : Bool} {s : State} {store : Half → List Byte} (hl : ∀ j, (store j).length = 10) {i n : Half}
    {es : List ScanEvent} (hgo : GoesOn (s.slotStep store) i es n) (h : Fetching more s) (hi : s.cursor.nextIdx = i)
    {f : Starts} (hf : f.Ok) (l : List Instant) :
    ∃ t, run (eventsTrace s.memAw store f es ++ l) (s.fetch more) = run l (t.fetch more) ∧ Scanned s store f es n t ∧
      Fetching more t := by
  generalize hslots : s.slotStep store = slots at hgo
  induction hgo generalizing s f with
  | refl => exact ⟨s, rfl, hi ▸ .start s store f s.seq, h⟩
  | @record i n es hends _ ih =>
    subst hi hslots
    obtain ⟨t, hrun, ht, hseq⟩ := run_record h hf (hl _)
      (eventsTrace s.memAw store (f.after (fetches (s.slotStep store s.cursor.nextIdx).events).length) es ++ l)
    rw [State.resumeScan, if_neg (by exact Bool.eq_false_iff.1 hends)] at hrun
    obtain ⟨hbusy, _, haw, hcap, hdt, hidx⟩ := ht.kept
    have hslot : t.cursor.nextIdx < t.capacity := by
      rw [hidx, hcap]
      exact specRecord_next_lt h.slot _
    have hsame : t.slotStep store = s.slotStep store := by
      unfold State.slotStep
      rw [hcap, hdt, hseq]
    obtain ⟨u, hrun', hu, hfetch⟩ := ih ⟨hbusy.trans h.busy, by rw [hseq]; exact h.task, hslot⟩ hidx
      (hf.after (fetches (s.slotStep store s.cursor.nextIdx).events).length) hsame
    rw [haw] at hrun'
    refine ⟨u, ?_, ht.append hu, hfetch⟩
    rw [eventsTrace_append, List.append_assoc]
    exact hrun.trans hrun'

/-- A scan about to read a record waits for its START. -/
theorem waiting_fetch {more : Bool} {s : State} (h : Fetching more s) : Waiting (s.fetch more) := by
  rw [fetch_inRange h]
  exact ⟨h.busy, .inr ⟨.start, rfl, nofun⟩⟩

/-- Where the trace is used up there, the block is still busy. -/
theorem run_nil_fetch {more : Bool} {s : State} (h : Fetching more s) :
    (run [] (s.fetch more)).busy = true ∧ (run [] (s.fetch more)).env.txs = s.env.txs := by
  rw [run_nil_waiting (waiting_fetch h), fetch_inRange h]
  exact ⟨h.busy, rfl⟩

/-- A pass in a later minute of the day (R225), its scan gone through the events `es` where the trace is used up. -/
theorem run_windows_goesOn {p : State} {store : Half → List Byte} (hl : ∀ j, (store j).length = 10) {es : List ScanEvent}
    {n : Half} (hb : p.busy = true) (hslot : p.cursor.nextIdx < p.capacity)
    (hlater : p.cursor.lastMin < p.dt.minuteOfDay)
    (hgo : GoesOn ((p.window false p.cursor.lastMin p.dt.minuteOfDay).slotStep store) p.cursor.nextIdx es n) {f : Starts}
    (hf : f.Ok) :
    (run (eventsTrace p.memAw store f es) p.windows).busy = true ∧
      (run (eventsTrace p.memAw store f es) p.windows).env.txs = p.env.txs ++ eventsTx es := by
  have hnew : p.dt.minuteOfDay ≠ p.cursor.lastMin := fun he => Nat.lt_irrefl _ (BitVec.lt_def.1 (he ▸ hlater))
  obtain ⟨t, hrun, ht, hfetch⟩ := run_goesOn hl hgo (fetching_window hb hslot false _ _) rfl hf []
  have hwindow : run (eventsTrace p.memAw store f es) p.windows = run [] (t.fetch false) := by
    rw [windows_newMinute hnew, if_pos hlater, ← hrun, List.append_nil]
    rfl
  obtain ⟨hbusy, hsent⟩ := run_nil_fetch hfetch
  rw [hwindow]
  exact ⟨hbusy, hsent.trans (congrArg (fun t : State => t.env.txs) ht.frame :)⟩

/-! ### The answers to a scan -/

theorem eventsTrace_laps (aw : BitVec 2) (store : Half → List Byte) (es : List ScanEvent) (k : Nat) :
    eventsTrace aw store plainStarts (List.replicate k es).flatten =
      (List.replicate k (eventsTrace aw store plainStarts es)).flatten := by
  induction k with
  | zero => rfl
  | succ k ih =>
    have hplain : plainStarts.after (fetches es).length = plainStarts := rfl
    rw [List.replicate_succ, List.replicate_succ, List.flatten_cons, List.flatten_cons, eventsTrace_append, hplain, ih]

theorem length_eventsTx_laps (es : List ScanEvent) (k : Nat) :
    (eventsTx (List.replicate k es).flatten).length = k * (eventsTx es).length := by
  induction k with
  | zero => exact (Nat.zero_mul _).symm
  | succ k ih =>
    rw [List.replicate_succ, List.flatten_cons, eventsTx_append, List.length_append, ih, Nat.succ_mul, Nat.add_comm]

/-- Nothing but answers: no RESET, no host access, no TICK edge. -/
def Instant.Undisturbed (i : Instant) : Prop := i.reset = false ∧ i.host = none ∧ i.tick = false

theorem undisturbed_readTrace (st st2 : Byte) (aw : BitVec 2) (ds : List Byte) :
    ∀ i ∈ readTrace st st2 aw ds, i.Undisturbed := by
  have htrace : (Xfer.prims ⟨.rd, 0, aw, 0, 0⟩ st st2 ds).map PrimEvent.instant = readTrace st st2 aw ds :=
    Xfer.map_instant_prims _ st st2 ds
  intro i hi
  rw [← htrace] at hi
  obtain ⟨p, _, rfl⟩ := List.mem_map.1 hi
  unfold PrimEvent.instant
  split <;> exact ⟨rfl, rfl, rfl⟩

theorem undisturbed_eventsTrace (aw : BitVec 2) (store : Half → List Byte) (f : Starts) (es : List ScanEvent) :
    ∀ i ∈ eventsTrace aw store f es, i.Undisturbed := by
  induction es generalizing f with
  | nil => nofun
  | cons e es ih =>
    intro i hi
    cases e with
    | fetch j => exact (List.mem_append.1 hi).elim (undisturbed_readTrace _ _ _ _ i) (ih _ i)
    | tx e =>
      rcases List.mem_cons.1 hi with rfl | hi
      · exact ⟨rfl, rfl, rfl⟩
      · exact ih _ i hi

/-! ### The configuration of R310 -/

/-- Slots 0, 1 and 3 at 10:00, slot 2 invalid. -/
def loopStore (i : Half) : List Byte :=
  if i = 0 then tenOClock 0x41
  else if i = 1 then tenOClock 0x42
  else if i = 2 then [0, 0, 0, 0, 0, 0, 0, 0, 0, 0]
  else tenOClock 0x44

theorem length_loopStore (i : Half) : (loopStore i).length = 10 := by
  unfold loopStore
  split_ifs <;> rfl

/-- The time record of 10:01. -/
def minutePastTen : List Byte := [0, 0x01, 0x10, 0, 0, 0, 0]

/-- The scan of the window of 10:00 that begins at slot 3. -/
def loopStep (i : Half) : RecordStep := specRecord 4 (specTime minutePastTen) .normal 600 601 3 i (loopStore i)

/-- Slot 3 fires, and the cursor wraps to 0. -/
def loopEntry : List ScanEvent := [.fetch 3, .tx ⟨0x44, 1, true⟩]

/-- Slots 0 and 1 fire, and the invalid slot 2 sends the cursor to 0 again. -/
def loopLap : List ScanEvent := [.fetch 0, .tx ⟨0x41, 1, true⟩, .fetch 1, .tx ⟨0x42, 1, true⟩, .fetch 2]

theorem goesOn_loopEntry : GoesOn loopStep 3 loopEntry 0 := .record rfl (.refl _)

/-- The lap does not meet slot 3, where the guard would end the scan (R237). -/
theorem goesOn_loopLap : GoesOn loopStep 0 loopLap 0 := .record rfl (.record rfl (.record rfl (.refl _)))

/-- The entry and a number of laps. -/
def loopEvents (k : Nat) : List ScanEvent := loopEntry ++ (List.replicate k loopLap).flatten

theorem goesOn_loopEvents (k : Nat) : GoesOn loopStep 3 (loopEvents k) 0 := goesOn_loopEntry.trans (goesOn_loopLap.laps k)

theorem length_eventsTx_loopEvents (k : Nat) : (eventsTx (loopEvents k)).length = 1 + k * 2 := by
  rw [loopEvents, eventsTx_append, List.length_append, length_eventsTx_laps]
  rfl

theorem eventsTrace_loopEvents (aw : BitVec 2) (k : Nat) :
    eventsTrace aw loopStore plainStarts (loopEvents k) =
      readTrace stStart stRepStart aw (tenOClock 0x44) ++ [.ack] ++
        (List.replicate k
          (readTrace stStart stRepStart aw (tenOClock 0x41) ++ [.ack] ++
            readTrace stStart stRepStart aw (tenOClock 0x42) ++ [.ack] ++
            readTrace stStart stRepStart aw [0, 0, 0, 0, 0, 0, 0, 0, 0, 0])).flatten := by
  have hentry : eventsTrace aw loopStore plainStarts loopEntry =
      readTrace stStart stRepStart aw (tenOClock 0x44) ++ [.ack] := rfl
  have hlap : eventsTrace aw loopStore plainStarts loopLap =
      readTrace stStart stRepStart aw (tenOClock 0x41) ++ [.ack] ++
        readTrace stStart stRepStart aw (tenOClock 0x42) ++ [.ack] ++
        readTrace stStart stRepStart aw [0, 0, 0, 0, 0, 0, 0, 0, 0, 0] := by
    rw [← List.append_nil (readTrace stStart stRepStart aw [0, 0, 0, 0, 0, 0, 0, 0, 0, 0])]
    simp only [List.append_assoc]
    rfl
  have hplain : plainStarts.after (fetches loopEntry).length = plainStarts := rfl
  rw [loopEvents, eventsTrace_append, hplain, eventsTrace_laps, hentry, hlap]

theorem slotStep_loop {p : State} (hcap : p.capacity = 4) (hcursor : p.cursor = { lastMin := 600, nextIdx := 3 })
    (hdt : p.dt = specTime minutePastTen) (hmode : p.seq.mode = .normal) :
    (p.window false 600 601).slotStep loopStore = loopStep := by
  funext i
  show specRecord p.capacity p.dt p.seq.mode 600 601 p.cursor.nextIdx i (loopStore i) = loopStep i
  rw [hcap, hdt, hmode, hcursor]
  rfl

/-- A CHKDUE.N at 10:01 whose answers are those of the entry and of `k` laps is still busy, and has transmitted at each. -/
theorem exec_chkdueN_loop {s : State} (hr : Ready s) (hcap : s.capacity = 4)
    (hcursor : s.cursor = { lastMin := 600, nextIdx := 3 }) (k : Nat)
    (hin : s.env.inputs = readTrace stStart stRepStart 1 minutePastTen ++
      eventsTrace s.memAw loopStore plainStarts (loopEvents k)) :
    ∃ t, exec .chkdueN s = .next t ∧ t.busy = true ∧ t.env.txs = s.env.txs ++ eventsTx (loopEvents k) := by
  have hexec := dueBy_run_windows (d := .normal) hr nofun rfl rfl rfl (by decide) hin
  generalize hp : DueBy.timed .normal s stStart stRepStart minutePastTen _ = p at hexec
  obtain ⟨hbusy, hpcap, hpcursor, hdt, hmode, haw, htxs⟩ : p.busy = true ∧ p.capacity = 4 ∧
      p.cursor = { lastMin := 600, nextIdx := 3 } ∧ p.dt = specTime minutePastTen ∧ p.seq.mode = .normal ∧
      p.memAw = s.memAw ∧ p.env.txs = s.env.txs := by
    rw [← hp]
    exact ⟨rfl, hcap, hcursor, rfl, rfl, rfl, rfl⟩
  have hminute : p.dt.minuteOfDay = 601 := by rw [hdt]; decide
  obtain ⟨hstill, hsent⟩ := run_windows_goesOn (p := p) length_loopStore hbusy
    (by rw [hpcursor, hpcap]; decide) (by rw [hminute, hpcursor]; decide)
    (by rw [hminute, hpcursor, slotStep_loop hpcap hpcursor hdt hmode]; exact goesOn_loopEvents k)
    (f := plainStarts) fun _ => ⟨rfl, rfl⟩
  rw [haw] at hstill hsent
  rw [htxs] at hsent
  exact ⟨_, hexec, hstill, hsent⟩

/-- Settles O38: with as many laps as transmissions are asked for. -/
theorem scanMayLoop : Obligations.ScanMayLoop := by
  intro s n hr hcap hcursor
  have hin := eventsTrace_loopEvents s.memAw n
  obtain ⟨t, hexec, hbusy, htxs⟩ := exec_chkdueN_loop
    (s := s.withInputs (readTrace stStart stRepStart 1 minutePastTen ++
      eventsTrace s.memAw loopStore plainStarts (loopEvents n)))
    ⟨hr.busy, hr.halt, hr.pstate, hr.task⟩ hcap hcursor n rfl
  have hsent : t.env.txs.length - s.env.txs.length = 1 + n * 2 := by
    have hbefore : ∀ l, (s.withInputs l).env.txs = s.env.txs := fun _ => rfl
    rw [htxs, hbefore, List.length_append, length_eventsTx_loopEvents, Nat.add_sub_cancel_left]
  refine ⟨_, t, fun i hi => ?_, hexec, hbusy, by omega, n, ?_⟩
  · exact (List.mem_append.1 hi).elim (undisturbed_readTrace _ _ _ _ i) (undisturbed_eventsTrace _ _ _ _ i)
  · rw [hin]
    simp only [List.append_assoc]
    rfl

end Sys2Proof.Machine
end
